-- ==== Sys2Proof/Word.lean ====
section
/-! DEFINITION. The words of the machine (spec/00_scope.md R8, R9): bit 0 is the least significant bit, every value is
unsigned. -/

namespace Sys2Proof

/-- One byte: a `V` register, a timer, a byte of memory (10_state R21, R36; 20_memory R60). -/
abbrev Byte := BitVec 8

/-- Sixteen bits: an opcode, `I`, `PC`, a stack slot, the key latch (30_encoding R90; 10_state R25, R28, R29, R34). -/
abbrev Word := BitVec 16

/-- A 4-bit field of an opcode: a register number `x` or `y`, a row count `n` (30_encoding R91, R93). -/
abbrev Nibble := BitVec 4

/-- A 12-bit immediate `nnn` (30_encoding R91, R93). -/
abbrev Imm12 := BitVec 12

end Sys2Proof
end

