-- ==== Sys2Proof/Syntax.lean ====
section
/-! DEFINITION. The instruction set: one constructor per row of spec/opcode_table.json (30_encoding R96), named by the
row's pattern, which is the spec's own name for it (30_encoding R104). Fields an instruction ignores (`nnn` of 0NNN, `y` of
8XY6 and 8XYE) are kept, so that an instruction has exactly one word. -/

namespace Sys2Proof

/-- The 35 instructions; the conventional mnemonic stands after the pattern. -/
inductive Instr where
  /-- `00E0` (`CLS`), R200. -/
  | op00E0
  /-- `00EE` (`RET`), R131. -/
  | op00EE
  /-- `0NNN` (`SYS nnn`), R130; `nnn` is ignored. -/
  | op0NNN (nnn : Imm12)
  /-- `1NNN` (`JP nnn`), R132. -/
  | op1NNN (nnn : Imm12)
  /-- `2NNN` (`CALL nnn`), R133. -/
  | op2NNN (nnn : Imm12)
  /-- `3XNN` (`SE Vx, nn`), R134. -/
  | op3XNN (x : Nibble) (nn : Byte)
  /-- `4XNN` (`SNE Vx, nn`), R135. -/
  | op4XNN (x : Nibble) (nn : Byte)
  /-- `5XY0` (`SE Vx, Vy`), R136. -/
  | op5XY0 (x y : Nibble)
  /-- `6XNN` (`LD Vx, nn`), R150. -/
  | op6XNN (x : Nibble) (nn : Byte)
  /-- `7XNN` (`ADD Vx, nn`), R151. -/
  | op7XNN (x : Nibble) (nn : Byte)
  /-- `8XY0` (`LD Vx, Vy`), R152. -/
  | op8XY0 (x y : Nibble)
  /-- `8XY1` (`OR Vx, Vy`), R153. -/
  | op8XY1 (x y : Nibble)
  /-- `8XY2` (`AND Vx, Vy`), R154. -/
  | op8XY2 (x y : Nibble)
  /-- `8XY3` (`XOR Vx, Vy`), R155. -/
  | op8XY3 (x y : Nibble)
  /-- `8XY4` (`ADD Vx, Vy`), R156. -/
  | op8XY4 (x y : Nibble)
  /-- `8XY5` (`SUB Vx, Vy`), R157. -/
  | op8XY5 (x y : Nibble)
  /-- `8XY6` (`SHR Vx`), R158; `y` is ignored. -/
  | op8XY6 (x y : Nibble)
  /-- `8XY7` (`SUBN Vx, Vy`), R159. -/
  | op8XY7 (x y : Nibble)
  /-- `8XYE` (`SHL Vx`), R160; `y` is ignored. -/
  | op8XYE (x y : Nibble)
  /-- `9XY0` (`SNE Vx, Vy`), R137. -/
  | op9XY0 (x y : Nibble)
  /-- `ANNN` (`LD I, nnn`), R180. -/
  | opANNN (nnn : Imm12)
  /-- `BNNN` (`JP V0, nnn`), R138. -/
  | opBNNN (nnn : Imm12)
  /-- `CXNN` (`RND Vx, nn`), R170. -/
  | opCXNN (x : Nibble) (nn : Byte)
  /-- `DXYN` (`DRW Vx, Vy, n`), R202. -/
  | opDXYN (x y n : Nibble)
  /-- `EX9E` (`SKP Vx`), R220. -/
  | opEX9E (x : Nibble)
  /-- `EXA1` (`SKNP Vx`), R221. -/
  | opEXA1 (x : Nibble)
  /-- `FX07` (`LD Vx, DT`), R223. -/
  | opFX07 (x : Nibble)
  /-- `FX0A` (`LD Vx, K`), R226. -/
  | opFX0A (x : Nibble)
  /-- `FX15` (`LD DT, Vx`), R224. -/
  | opFX15 (x : Nibble)
  /-- `FX18` (`LD ST, Vx`), R225. -/
  | opFX18 (x : Nibble)
  /-- `FX1E` (`ADD I, Vx`), R181. -/
  | opFX1E (x : Nibble)
  /-- `FX29` (`LD F, Vx`), R182. -/
  | opFX29 (x : Nibble)
  /-- `FX33` (`LD B, Vx`), R183. -/
  | opFX33 (x : Nibble)
  /-- `FX55` (`LD [I], Vx`), R184. -/
  | opFX55 (x : Nibble)
  /-- `FX65` (`LD Vx, [I]`), R185. -/
  | opFX65 (x : Nibble)
  deriving DecidableEq, Repr

end Sys2Proof
end

