-- ==== Sys2Proof/Decode.lean ====
section
/-! DEFINITION. The decoder (30_encoding R91 to R101), total on every word and every list of bytes, and the encoder written
from the same encoding table (30_encoding R92, R96). -/

namespace Sys2Proof

/-- Why the decoder rejects. -/
inductive DecodeError where
  /-- A word whose verdict is illegal (30_encoding R94, R99); the machine then raises the fault `UnknownOpcode(op)`. -/
  | unknownOpcode (op : Word)
  /-- Fewer than two bytes are left: no instruction is shorter than two bytes (30_encoding R90). Only `decodeBytes` answers
  it; the machine's fetch always brings two bytes. -/
  | truncated
  deriving DecidableEq, Repr

/-- The group `g`, bits 15:12 (30_encoding R91). -/
def opGroup (op : Word) : Nibble := op.extractLsb' 12 4

/-- The field `x`, bits 11:8 (30_encoding R91). -/
def opX (op : Word) : Nibble := op.extractLsb' 8 4

/-- The field `y`, bits 7:4 (30_encoding R91). -/
def opY (op : Word) : Nibble := op.extractLsb' 4 4

/-- The field `n`, bits 3:0 (30_encoding R91). -/
def opN (op : Word) : Nibble := op.extractLsb' 0 4

/-- The field `nn`, bits 7:0 (30_encoding R91). -/
def opNN (op : Word) : Byte := op.extractLsb' 0 8

/-- The field `nnn`, bits 11:0 (30_encoding R91). -/
def opNNN (op : Word) : Imm12 := op.extractLsb' 0 12

/-- Group 0: 00E0 and 00EE are matched first, every other word is 0NNN (30_encoding R95, R100). -/
def decodeGroup0 (op : Word) : Instr :=
  if op = 0x00E0#16 then .op00E0
  else if op = 0x00EE#16 then .op00EE
  else .op0NNN (opNNN op)

/-- Group 8, by the low nibble (30_encoding R94). -/
def decodeGroup8 (op : Word) : Except DecodeError Instr :=
  match opN op with
  | 0x0#4 => .ok (.op8XY0 (opX op) (opY op))
  | 0x1#4 => .ok (.op8XY1 (opX op) (opY op))
  | 0x2#4 => .ok (.op8XY2 (opX op) (opY op))
  | 0x3#4 => .ok (.op8XY3 (opX op) (opY op))
  | 0x4#4 => .ok (.op8XY4 (opX op) (opY op))
  | 0x5#4 => .ok (.op8XY5 (opX op) (opY op))
  | 0x6#4 => .ok (.op8XY6 (opX op) (opY op))
  | 0x7#4 => .ok (.op8XY7 (opX op) (opY op))
  | 0xE#4 => .ok (.op8XYE (opX op) (opY op))
  | _ => .error (.unknownOpcode op)

/-- Group E, by the low byte (30_encoding R94). -/
def decodeGroupE (op : Word) : Except DecodeError Instr :=
  match opNN op with
  | 0x9E#8 => .ok (.opEX9E (opX op))
  | 0xA1#8 => .ok (.opEXA1 (opX op))
  | _ => .error (.unknownOpcode op)

/-- Group F, by the low byte (30_encoding R94). -/
def decodeGroupF (op : Word) : Except DecodeError Instr :=
  match opNN op with
  | 0x07#8 => .ok (.opFX07 (opX op))
  | 0x0A#8 => .ok (.opFX0A (opX op))
  | 0x15#8 => .ok (.opFX15 (opX op))
  | 0x18#8 => .ok (.opFX18 (opX op))
  | 0x1E#8 => .ok (.opFX1E (opX op))
  | 0x29#8 => .ok (.opFX29 (opX op))
  | 0x33#8 => .ok (.opFX33 (opX op))
  | 0x55#8 => .ok (.opFX55 (opX op))
  | 0x65#8 => .ok (.opFX65 (opX op))
  | _ => .error (.unknownOpcode op)

/-- The decode procedure (30_encoding R94). -/
def decode (op : Word) : Except DecodeError Instr :=
  match opGroup op with
  | 0x0#4 => .ok (decodeGroup0 op)
  | 0x1#4 => .ok (.op1NNN (opNNN op))
  | 0x2#4 => .ok (.op2NNN (opNNN op))
  | 0x3#4 => .ok (.op3XNN (opX op) (opNN op))
  | 0x4#4 => .ok (.op4XNN (opX op) (opNN op))
  | 0x5#4 => if opN op = 0x0#4 then .ok (.op5XY0 (opX op) (opY op)) else .error (.unknownOpcode op)
  | 0x6#4 => .ok (.op6XNN (opX op) (opNN op))
  | 0x7#4 => .ok (.op7XNN (opX op) (opNN op))
  | 0x8#4 => decodeGroup8 op
  | 0x9#4 => if opN op = 0x0#4 then .ok (.op9XY0 (opX op) (opY op)) else .error (.unknownOpcode op)
  | 0xA#4 => .ok (.opANNN (opNNN op))
  | 0xB#4 => .ok (.opBNNN (opNNN op))
  | 0xC#4 => .ok (.opCXNN (opX op) (opNN op))
  | 0xD#4 => .ok (.opDXYN (opX op) (opY op) (opN op))
  | 0xE#4 => decodeGroupE op
  | _ => decodeGroupF op

/-- Two bytes make a word, the first the high byte (20_memory R61). -/
def wordOfBytes (hi lo : Byte) : Word := hi ++ lo

/-- The bytes of a word in the order memory holds them (20_memory R61). -/
def bytesOfWord (op : Word) : List Byte := [op.extractLsb' 8 8, op.extractLsb' 0 8]

/-- The instruction at the head of a list of bytes, and the bytes after it (30_encoding R90). -/
def decodeBytes : List Byte → Except DecodeError (Instr × List Byte)
  | hi :: lo :: rest =>
    match decode (wordOfBytes hi lo) with
    | .ok i => .ok (i, rest)
    | .error e => .error e
  | _ => .error .truncated

/-! The encoder, after the decoder: each row's word from 30_encoding R92 and R96. -/

/-- The formats NNN, XNN, XYS and XYN (30_encoding R92): the group and the fields, bit 15 leftmost. -/
def formatNNN (g : Nibble) (nnn : Imm12) : Word := g ++ nnn

@[inherit_doc formatNNN]
def formatXNN (g x : Nibble) (nn : Byte) : Word := g ++ x ++ nn

@[inherit_doc formatNNN]
def formatXYN (g x y n : Nibble) : Word := g ++ x ++ y ++ n

/-- The word of an instruction (30_encoding R96). -/
def encode : Instr → Word
  | .op00E0 => 0x00E0#16
  | .op00EE => 0x00EE#16
  | .op0NNN nnn => formatNNN 0x0 nnn
  | .op1NNN nnn => formatNNN 0x1 nnn
  | .op2NNN nnn => formatNNN 0x2 nnn
  | .op3XNN x nn => formatXNN 0x3 x nn
  | .op4XNN x nn => formatXNN 0x4 x nn
  | .op5XY0 x y => formatXYN 0x5 x y 0x0
  | .op6XNN x nn => formatXNN 0x6 x nn
  | .op7XNN x nn => formatXNN 0x7 x nn
  | .op8XY0 x y => formatXYN 0x8 x y 0x0
  | .op8XY1 x y => formatXYN 0x8 x y 0x1
  | .op8XY2 x y => formatXYN 0x8 x y 0x2
  | .op8XY3 x y => formatXYN 0x8 x y 0x3
  | .op8XY4 x y => formatXYN 0x8 x y 0x4
  | .op8XY5 x y => formatXYN 0x8 x y 0x5
  | .op8XY6 x y => formatXYN 0x8 x y 0x6
  | .op8XY7 x y => formatXYN 0x8 x y 0x7
  | .op8XYE x y => formatXYN 0x8 x y 0xE
  | .op9XY0 x y => formatXYN 0x9 x y 0x0
  | .opANNN nnn => formatNNN 0xA nnn
  | .opBNNN nnn => formatNNN 0xB nnn
  | .opCXNN x nn => formatXNN 0xC x nn
  | .opDXYN x y n => formatXYN 0xD x y n
  | .opEX9E x => formatXNN 0xE x 0x9E
  | .opEXA1 x => formatXNN 0xE x 0xA1
  | .opFX07 x => formatXNN 0xF x 0x07
  | .opFX0A x => formatXNN 0xF x 0x0A
  | .opFX15 x => formatXNN 0xF x 0x15
  | .opFX18 x => formatXNN 0xF x 0x18
  | .opFX1E x => formatXNN 0xF x 0x1E
  | .opFX29 x => formatXNN 0xF x 0x29
  | .opFX33 x => formatXNN 0xF x 0x33
  | .opFX55 x => formatXNN 0xF x 0x55
  | .opFX65 x => formatXNN 0xF x 0x65

/-- The instruction's two bytes as memory holds them (20_memory R61). -/
def encodeBytes (i : Instr) : List Byte := bytesOfWord (encode i)

/-- The word the host's table numbers `w` with `nbits` bits: one 16-bit word, the bits above `nbits` zero. -/
def tableWord (nbits w : Nat) : Word := BitVec.ofNat 16 (w % 2 ^ nbits)

/-- The instruction the decoder reads from the table's word, laid out in memory order. -/
def decodeTableWord (nbits w : Nat) : Option Instr :=
  match decodeBytes (bytesOfWord (tableWord nbits w)) with
  | .ok (i, _) => some i
  | .error _ => none

end Sys2Proof
end

