-- ==== Sys2Proof/Config.lean ====
section
/-! DEFINITION. What is fixed for this hardware (spec/00_scope.md R7) and the free values: the samples the environment
supplies (R14), which nothing in the model constrains. -/

namespace Sys2Proof

/-- `MEM_SIZE`, 4096 bytes (R7). -/
def Config.memSize : Nat := 0x1000

/-- `PROG_BASE` (R7). -/
def Config.progBase : Nat := 0x200

/-- `ROM_MAX`, 3584 bytes (R7). -/
def Config.romMax : Nat := 0xE00

/-- `CYCLES_PER_FRAME`, 8 decoder invocations a frame (R7; 60_exceptions R265, D17). `TIMER_TICK_MODE` is `PerFrame`, the
only mode the spec specifies (R7, D1): the model has no other. -/
def Config.cyclesPerFrame : Nat := 8

/-- Free value (log entry 3): the `run_en` sample number `k`, where the state's `runEn` port lists none
(60_exceptions R262). -/
opaque Config.runEnIn : Nat → Bool

/-- Free value (log entry 3): the `keys_in` sample number `k`, where the state's `keysIn` port lists none
(60_exceptions R264). -/
opaque Config.keysIn : Nat → BitVec 16

/-- Free value (log entry 3): the `rand_in` byte number `k`, where the state's `randIn` port lists none
(41_alu R171, D16). -/
opaque Config.randIn : Nat → BitVec 8

end Sys2Proof
end

