-- ==== Sys2Proof/Machine/State.lean ====
section
/-! DEFINITION. The complete state of the core (10_state R20), its reset values (10_state R50), and why a step can stop. -/

namespace Sys2Proof.Machine

/-- `MODE` (10_state R37). -/
inductive Mode where
  /-- The next invocation fetches and executes. -/
  | running
  /-- The next invocation polls `KEYS`; a pressed key goes to register `target`. -/
  | awaitingKey (target : Nibble)
  deriving DecidableEq, Repr

/-- The fault kinds (60_exceptions R241). -/
inductive FaultKind where
  /-- ROM load: the image is longer than 3584 bytes (R242). -/
  | romTooLarge
  /-- 2NNN with 16 entries held (R243). -/
  | stackOverflow
  /-- 00EE with no entry held (R244). -/
  | stackUnderflow
  /-- An illegal word (R245). -/
  | unknownOpcode
  /-- A byte address above 0xFFF would be touched (R246). -/
  | addressOutOfRange
  /-- EX9E or EXA1 with a key index above 15 (R247). -/
  | keyIndexOutOfRange
  deriving DecidableEq, Repr

/-- `HALT` (10_state R35, R38; 60_exceptions R241). -/
inductive Halt where
  /-- The sequencer steps. -/
  | none
  /-- A fault was raised: its code, its info, and the address of the faulting instruction. -/
  | faulted (kind : FaultKind) (info faultPc : Word)
  /-- The run flag was found clear at a frame start (60_exceptions R262). -/
  | stopped
  deriving DecidableEq, Repr

/-- `SEQ`, the sequencer's position in the frame (10_state R35; 60_exceptions R263). -/
inductive Seq where
  | frameStart
  | invoke (k : Fin Config.cyclesPerFrame)
  | tick
  | audioUpdate
  | present
  deriving DecidableEq, Repr

/-- An input port's sequence of samples (00_scope R14), the model's own field, not the spec's state (log entry 3):
`pending` are the samples the environment has fixed already, next first; once they are used up, sample number `taken` is a
free value of Config. -/
structure Port (α : Type) where
  pending : List α
  taken : Nat
  deriving DecidableEq, Repr

/-- Memory as the bytes that differ from what an unlisted address reads as (see `Memory.read` and `Memory.wf`). -/
abbrev Memory := List Host.Cell

/-- The framebuffer: 32 rows of 64 pixels, `true` is on (10_state R32). -/
abbrev FrameBuffer := Vector (Vector Bool 64) 32

/-- The complete state (10_state R20), and the three input sequences. -/
structure State where
  /-- `MEM` (R31). -/
  mem : Memory
  /-- `V[0..15]` (R21). -/
  v : Vector Byte 16
  /-- `I` (R28). -/
  i : Word
  /-- `PC` (R25). -/
  pc : Word
  /-- `STACK[0..15]` (R29); slots at and above `sp` keep stale values. -/
  stack : Vector Word 16
  /-- `SP`, the number of valid entries, 0..16 (R29, R35). -/
  sp : Fin 17
  /-- `DT` (R36). -/
  dt : Byte
  /-- `ST` (R36). -/
  st : Byte
  /-- `FB` (R32). -/
  fb : FrameBuffer
  /-- `MODE` (R37). -/
  mode : Mode
  /-- `KEYS`, bit `k` is key `k` (R34). -/
  keys : Word
  /-- `AUDIO` (R35; 60_exceptions R267). -/
  audio : Bool
  /-- `HALT` (R38). -/
  halt : Halt
  /-- `SEQ` (R35). -/
  seq : Seq
  /-- The input `run_en` (60_exceptions R260, R262). -/
  runEn : Port Bool
  /-- The input `keys_in` (60_exceptions R260, R264). -/
  keysIn : Port Word
  /-- The input `rand_in` (60_exceptions R260; 41_alu R171). -/
  randIn : Port Byte
  deriving DecidableEq, Repr

/-- Why a step has no successor. Raised by `step` alone, on a core that is halted already (40_step R125); no instruction
raises one: a fault of the spec is a next state with `HALT` set (log entry 4). Both are safe. -/
inductive Fault where
  /-- `HALT = Faulted(..)`: "there is no invocation and no other sequencer step" (40_step R125). Safe. -/
  | coreFaulted (kind : FaultKind) (info faultPc : Word)
  /-- `HALT = Stopped` (60_exceptions R262). Safe. -/
  | coreStopped
  deriving DecidableEq, Repr

/-- Why an instruction has no meaning here. -/
inductive Refusal where
  /-- The instruction is not modelled yet: raised by an arm of `exec`, and by no arm of this model. Safe. -/
  | notModelled (mnemonic : String)
  deriving DecidableEq, Repr

/-- The state after reset and before ROM load (10_state R50; 70_reset R280). Memory lists nothing: an unlisted address
reads as its reset contents. The input ports are the model's own (log entry 3). -/
def State.reset : State where
  mem := []
  v := Vector.replicate 16 0
  i := 0
  pc := 0x0200
  stack := Vector.replicate 16 0
  sp := 0
  dt := 0
  st := 0
  fb := Vector.replicate 32 (Vector.replicate 64 false)
  mode := .running
  keys := 0
  audio := false
  halt := .none
  seq := .frameStart
  runEn := { pending := [], taken := 0 }
  keysIn := { pending := [], taken := 0 }
  randIn := { pending := [], taken := 0 }

end Sys2Proof.Machine
end

