-- ==== Sys2Proof/Machine/Memory.lean ====
section
/-! DEFINITION. `MEM` (20_memory R60, R68): reset contents, one byte's read and write, and the canonical form of the list. -/

namespace Sys2Proof.Machine

/-- `FONT`, sixteen glyphs of five bytes (10_state R33, D4). -/
def font : List Byte :=
  [0xF0, 0x90, 0x90, 0x90, 0xF0] ++ [0x20, 0x60, 0x20, 0x20, 0x70] ++
  [0xF0, 0x10, 0xF0, 0x80, 0xF0] ++ [0xF0, 0x10, 0xF0, 0x10, 0xF0] ++
  [0x90, 0x90, 0xF0, 0x10, 0x10] ++ [0xF0, 0x80, 0xF0, 0x10, 0xF0] ++
  [0xF0, 0x80, 0xF0, 0x90, 0xF0] ++ [0xF0, 0x10, 0x20, 0x40, 0x40] ++
  [0xF0, 0x90, 0xF0, 0x90, 0xF0] ++ [0xF0, 0x90, 0xF0, 0x10, 0xF0] ++
  [0xF0, 0x90, 0xF0, 0x90, 0x90] ++ [0xE0, 0x90, 0xE0, 0x90, 0xE0] ++
  [0xF0, 0x80, 0x80, 0x80, 0xF0] ++ [0xE0, 0x90, 0x90, 0x90, 0xE0] ++
  [0xF0, 0x80, 0xF0, 0x80, 0xF0] ++ [0xF0, 0x80, 0xF0, 0x80, 0x80]

/-- What an unlisted address reads as: the reset contents, the font from `FONT_BASE` 0x000 and 0x00 above it (10_state R50;
20_memory R68). -/
def resetByte (a : Nat) : Byte := (font[a]?).getD 0x00

/-- Whether an address exists (20_memory R60, R63). -/
def inMemory (a : Nat) : Bool := a < Config.memSize

/-- The byte at an address (20_memory R63, R72). Callers have checked the address. -/
def Memory.read : Memory → Nat → Byte
  | [], a => resetByte a
  | (b, w) :: m, a => if a = b then w else Memory.read m a

/-- The list with `v` at `a`, keeping the canonical form. -/
def Memory.put (a : Nat) (v : Byte) : Memory → Memory
  | [] => if v = resetByte a then [] else [(a, v)]
  | (b, w) :: m =>
    if a < b then (if v = resetByte a then (b, w) :: m else (a, v) :: (b, w) :: m)
    else if a = b then (if v = resetByte a then m else (a, v) :: m)
    else (b, w) :: Memory.put a v m

/-- Write one byte (20_memory R64, R70: every existing byte is writable). Callers have checked the address; at an address
that does not exist nothing is written (log entry 10). -/
def Memory.write (m : Memory) (a : Nat) (v : Byte) : Memory :=
  if inMemory a then Memory.put a v m else m

/-- The canonical form from address `lo` up: addresses strictly rising, each in the address space, no entry equal to what
its address would read as unlisted. -/
def Memory.wfFrom (lo : Nat) : Memory → Bool
  | [] => true
  | (a, v) :: m => decide (lo ≤ a) && inMemory a && decide (v ≠ resetByte a) && Memory.wfFrom (a + 1) m

/-- The canonical form. -/
def Memory.wf (m : Memory) : Bool := Memory.wfFrom 0 m

end Sys2Proof.Machine
end

