-- ==== Sys2Proof/Machine/Ops.lean ====
section
/-! DEFINITION. The named operations over registers, PC, stack, memory and input ports, and taking a fault. -/

namespace Sys2Proof.Machine

/-- What a meaning or a step answers. -/
abbrev Result := Host.Outcome State Fault Refusal

/-! ### Registers -/

/-- `V[x]` (10_state R21). -/
def State.getV (s : State) (x : Nibble) : Byte := s.v[x.toNat]'x.isLt

/-- `V[x] <- b` (10_state R21). -/
def State.setV (s : State) (x : Nibble) (b : Byte) : State := { s with v := s.v.set x.toNat b x.isLt }

/-- `PC <- a`. -/
def State.setPc (s : State) (a : Word) : State := { s with pc := a }

/-- `I <- a`. -/
def State.setI (s : State) (a : Word) : State := { s with i := a }

/-- `DT <- b`. -/
def State.setDt (s : State) (b : Byte) : State := { s with dt := b }

/-- `ST <- b`. -/
def State.setSt (s : State) (b : Byte) : State := { s with st := b }

/-- `FB <- f`. -/
def State.setFb (s : State) (f : FrameBuffer) : State := { s with fb := f }

/-- `MEM <- m`. -/
def State.setMem (s : State) (m : Memory) : State := { s with mem := m }

/-- `MODE <- m`. -/
def State.setMode (s : State) (m : Mode) : State := { s with mode := m }

/-- `HALT <- h`. -/
def State.setHalt (s : State) (h : Halt) : State := { s with halt := h }

/-- `SEQ <- q`. -/
def State.setSeq (s : State) (q : Seq) : State := { s with seq := q }

/-- The advance of PC after a fetch (40_step R122), and `skip` (00_scope R10; 40_step R139): both add exactly 2. -/
def State.advancePc (s : State) : State := s.setPc (s.pc + 2)

/-! ### The return stack (10_state R29) -/

/-- Push PC; no answer where 16 entries are held. -/
def State.push (s : State) : Option State :=
  if h : s.sp.val < 16 then
    some { s with stack := s.stack.set s.sp.val s.pc h, sp := ⟨s.sp.val + 1, by omega⟩ }
  else none

/-- Pop into PC; no answer where no entry is held. -/
def State.pop (s : State) : Option State :=
  if h : 0 < s.sp.val then
    some { s with sp := ⟨s.sp.val - 1, by omega⟩, pc := s.stack[s.sp.val - 1]'(by omega) }
  else none

/-! ### Taking a fault (60_exceptions R248; 40_step R126)

A fault saves nothing to memory or stack, changes no mode and goes to no handler: it sets `HALT` and nothing else. There is
no return from it (60_exceptions R249): no operation here clears `HALT`, only reset does (`State.hostReset`). -/

/-- `HALT <- Faulted(kind, info, faultPc)`. -/
def raiseAt (kind : FaultKind) (info faultPc : Word) (s : State) : Result :=
  .next (s.setHalt (.faulted kind info faultPc))

/-- A fault raised at execute, where PC is the instruction's address plus 2: `fault_pc` is the instruction's address
(60_exceptions R241; log entry 1). -/
def raise (kind : FaultKind) (info : Word) (s : State) : Result := raiseAt kind info (s.pc - 2) s

/-- The range check of a data access: if the highest address lies beyond 0xFFF, `AddressOutOfRange` with that address
modulo 65536 and no effect; else the body (20_memory R64). -/
def withLastAddr (last : Nat) (body : State → Result) (s : State) : Result :=
  if inMemory last then body s else raise .addressOutOfRange (BitVec.ofNat 16 last) s

/-! ### Fetch (40_step R121) -/

/-- The word at PC, big-endian, from the current contents of memory; no answer where PC is above 0xFFE. -/
def fetch (s : State) : Option Word :=
  if inMemory (s.pc.toNat + 1) then
    some (wordOfBytes (s.mem.read s.pc.toNat) (s.mem.read (s.pc.toNat + 1)))
  else none

/-! ### Moving registers to and from memory (42_index R184, R185) -/

/-- `MEM[base + k] <- V[k]` for `k` below `count`, ascending. -/
def storeRegs (s : State) (base : Nat) : Nat → Memory
  | 0 => s.mem
  | k + 1 => (storeRegs s base k).write (base + k) (s.getV (BitVec.ofNat 4 k))

/-- `V[k] <- MEM[base + k]` for `k` below `count`, ascending. -/
def loadRegs (s : State) (base : Nat) : Nat → State
  | 0 => s
  | k + 1 => (loadRegs s base k).setV (BitVec.ofNat 4 k) (s.mem.read (base + k))

/-! ### Input ports (60_exceptions R260; log entry 3) -/

/-- The next sample: the first pending one, else the free value with the sample's number. -/
def Port.value {α : Type} (free : Nat → α) (p : Port α) : α :=
  match p.pending with
  | [] => free p.taken
  | a :: _ => a

/-- The port after one sample is taken. -/
def Port.advance {α : Type} (p : Port α) : Port α :=
  { pending := p.pending.tail, taken := p.taken + 1 }

/-- The `run_en` sample (60_exceptions R262). -/
def State.runEnSample (s : State) : Bool := s.runEn.value Config.runEnIn

/-- The `keys_in` sample (60_exceptions R264). -/
def State.keysSample (s : State) : Word := s.keysIn.value Config.keysIn

/-- `rand8()` (41_alu R171): the `rand_in` sample. -/
def State.rand8 (s : State) : Byte := s.randIn.value Config.randIn

end Sys2Proof.Machine
end

