-- ==== Sys2Proof/Machine/Operands.lean ====
section
/-! DEFINITION. Operand forms (30_encoding R93; 42_index R186). Registers `V[x]`, `V[y]` are `State.getV`; `nn` and `n` are
used as they stand; the others are here. -/

namespace Sys2Proof.Machine

/-- `zext_16` of an immediate `nnn` (30_encoding R93). -/
def zext12 (nnn : Imm12) : Word := nnn.setWidth 16

/-- `zext_16` of a register's value (30_encoding R93; 42_index R181, R182). -/
def zext8 (b : Byte) : Word := b.setWidth 16

/-- The effective address `I + k`, an unbounded integer (20_memory R64; 42_index R186). -/
def State.dataAddr (s : State) (k : Nat) : Nat := s.i.toNat + k

/-- A key index operand: `KeyIndexOutOfRange` above 15, else the body at that key (44_keypad R222). -/
def withKeyIndex (b : Byte) (body : Nat → State → Result) (s : State) : Result :=
  if b.toNat ≤ 15 then body b.toNat s else raise .keyIndexOutOfRange (zext8 b) s

/-- `KEYS[k] = 1` (10_state R34). -/
def State.keyDown (s : State) (k : Nat) : Bool := s.keys.getLsbD k

/-- The least pressed key (40_step R124). -/
def leastKey (keys : Word) : Option Nat := (List.range 16).find? (fun k => keys.getLsbD k)

/-- The hundreds digit (42_index R183). -/
def bcdHundreds (b : Byte) : Byte := BitVec.ofNat 8 (b.toNat / 100)

/-- The tens digit (42_index R183). -/
def bcdTens (b : Byte) : Byte := BitVec.ofNat 8 (b.toNat / 10 % 10)

/-- The ones digit (42_index R183). -/
def bcdOnes (b : Byte) : Byte := BitVec.ofNat 8 (b.toNat % 10)

/-- `if c then skip` (00_scope R10; 40_step R139). -/
def skipIf (c : Bool) (s : State) : Result := .next (if c then s.advancePc else s)

end Sys2Proof.Machine
end

