-- ==== Sys2Proof/Machine/Flags.lean ====
section
/-! DEFINITION. The flag VF (10_state R23, R24): what each flag-writing instruction computes, and the order of the writes. -/

namespace Sys2Proof.Machine

/-- VF is register 0xF. -/
def flagReg : Nibble := 0xF#4

/-- A flag as a byte, exactly 0x00 or 0x01 (10_state R23). -/
def flagByte (f : Bool) : Byte := if f then 0x01 else 0x00

/-- Carry of 8XY4: 1 iff the unsigned sum exceeds 255 (41_alu R156). -/
def carryFlag (a b : Byte) : Bool := decide (a.toNat + b.toNat > 255)

/-- No-borrow of `a - b`: 1 iff `a >= b` (41_alu R157, R159). -/
def noBorrowFlag (a b : Byte) : Bool := decide (a.toNat ≥ b.toNat)

/-- The bit a right shift moves out (41_alu R158). -/
def shiftRightOut (a : Byte) : Bool := a.getLsbD 0

/-- The bit a left shift moves out (41_alu R160). -/
def shiftLeftOut (a : Byte) : Bool := a.getLsbD 7

/-- `V[15] <- f`. -/
def State.setFlag (s : State) (f : Bool) : State := s.setV flagReg (flagByte f)

/-- The result first, the flag second, so that with `x` = 0xF the flag remains (10_state R24, D7). -/
def State.setResultFlag (s : State) (x : Nibble) (r : Byte) (f : Bool) : State := (s.setV x r).setFlag f

end Sys2Proof.Machine
end

