-- ==== Sys2Proof/Machine/Alu.lean ====
section
/-! DEFINITION. Register load, arithmetic, logic, shift and random instructions (spec/41_alu.md R150 to R171). -/

namespace Sys2Proof.Machine

/-- `6XNN` (R150). -/
def exec6XNN (x : Nibble) (nn : Byte) (s : State) : Result := .next (s.setV x nn)

/-- `7XNN` (R151): VF is not a flag here. -/
def exec7XNN (x : Nibble) (nn : Byte) (s : State) : Result := .next (s.setV x (s.getV x + nn))

/-- `8XY0` (R152). -/
def exec8XY0 (x y : Nibble) (s : State) : Result := .next (s.setV x (s.getV y))

/-- `8XY1` (R153): VF is left alone (D8). -/
def exec8XY1 (x y : Nibble) (s : State) : Result := .next (s.setV x (s.getV x ||| s.getV y))

/-- `8XY2` (R154): VF is left alone (D8). -/
def exec8XY2 (x y : Nibble) (s : State) : Result := .next (s.setV x (s.getV x &&& s.getV y))

/-- `8XY3` (R155): VF is left alone (D8). -/
def exec8XY3 (x y : Nibble) (s : State) : Result := .next (s.setV x (s.getV x ^^^ s.getV y))

/-- `8XY4` (R156). -/
def exec8XY4 (x y : Nibble) (s : State) : Result :=
  .next (s.setResultFlag x (s.getV x + s.getV y) (carryFlag (s.getV x) (s.getV y)))

/-- `8XY5` (R157). -/
def exec8XY5 (x y : Nibble) (s : State) : Result :=
  .next (s.setResultFlag x (s.getV x - s.getV y) (noBorrowFlag (s.getV x) (s.getV y)))

/-- `8XY6` (R158): `y` is ignored. -/
def exec8XY6 (x _y : Nibble) (s : State) : Result :=
  .next (s.setResultFlag x (s.getV x >>> 1) (shiftRightOut (s.getV x)))

/-- `8XY7` (R159). -/
def exec8XY7 (x y : Nibble) (s : State) : Result :=
  .next (s.setResultFlag x (s.getV y - s.getV x) (noBorrowFlag (s.getV y) (s.getV x)))

/-- `8XYE` (R160): `y` is ignored. -/
def exec8XYE (x _y : Nibble) (s : State) : Result :=
  .next (s.setResultFlag x (s.getV x <<< 1) (shiftLeftOut (s.getV x)))

/-- `CXNN` (R170, R171): one draw is taken at every execution, also where `nn` is 0. -/
def execCXNN (x : Nibble) (nn : Byte) (s : State) : Result :=
  .next { s.setV x (s.rand8 &&& nn) with randIn := s.randIn.advance }

end Sys2Proof.Machine
end

