-- ==== Sys2Proof/Machine/ControlFlow.lean ====
section
/-! DEFINITION. The control-transfer instructions (spec/40_step_and_control_flow.md R130 to R139). -/

namespace Sys2Proof.Machine

/-- `0NNN` (R130, R100): nothing but the fetch's advance. -/
def exec0NNN (_nnn : Imm12) (s : State) : Result := .next s

/-- `00EE` (R131). -/
def exec00EE (s : State) : Result :=
  match s.pop with
  | some t => .next t
  | none => raise .stackUnderflow (encode .op00EE) s

/-- `1NNN` (R132). -/
def exec1NNN (nnn : Imm12) (s : State) : Result := .next (s.setPc (zext12 nnn))

/-- `2NNN` (R133). -/
def exec2NNN (nnn : Imm12) (s : State) : Result :=
  match s.push with
  | some t => .next (t.setPc (zext12 nnn))
  | none => raise .stackOverflow (encode (.op2NNN nnn)) s

/-- `3XNN` (R134). -/
def exec3XNN (x : Nibble) (nn : Byte) (s : State) : Result := skipIf (decide (s.getV x = nn)) s

/-- `4XNN` (R135). -/
def exec4XNN (x : Nibble) (nn : Byte) (s : State) : Result := skipIf (decide (s.getV x ≠ nn)) s

/-- `5XY0` (R136). -/
def exec5XY0 (x y : Nibble) (s : State) : Result := skipIf (decide (s.getV x = s.getV y)) s

/-- `9XY0` (R137). -/
def exec9XY0 (x y : Nibble) (s : State) : Result := skipIf (decide (s.getV x ≠ s.getV y)) s

/-- `BNNN` (R138): the register is always V0, the sum is not masked. -/
def execBNNN (nnn : Imm12) (s : State) : Result := .next (s.setPc (zext12 nnn + zext8 (s.getV 0)))

end Sys2Proof.Machine
end

