-- ==== Sys2Proof/Machine/Sprite.lean ====
section
/-! DEFINITION. The framebuffer and the XOR sprite engine (10_state R32; 43_display R201 to R206). -/

namespace Sys2Proof.Machine

/-- `FB[r][c]` (10_state R32). -/
def pixel (fb : FrameBuffer) (r : Fin 32) (c : Fin 64) : Bool := fb[r][c]

/-- `FB[r][c] <- FB[r][c] xor 1` (43_display R201). -/
def togglePixel (fb : FrameBuffer) (r : Fin 32) (c : Fin 64) : FrameBuffer :=
  fb.set r (fb[r].set c (!fb[r][c]))

/-- All 2048 pixels off (43_display R200). -/
def clearedFb : FrameBuffer := Vector.replicate 32 (Vector.replicate 64 false)

/-- The column of sprite column `j`, wrapped modulo 64 (43_display R203). -/
def spriteCol (x0 j : Nat) : Fin 64 := Fin.ofNat 64 (x0 + j)

/-- The row of sprite row `k`, wrapped modulo 32 (43_display R203). -/
def spriteRow (y0 k : Nat) : Fin 32 := Fin.ofNat 32 (y0 + k)

/-- Sprite row `k`'s column `j`: bit `7 - j` of its byte; where it is 1, the pixel toggles and the collision is recorded if
it was on (43_display R201, R202). -/
def drawPixel (x0 y0 k : Nat) (b : Byte) (acc : FrameBuffer × Bool) (j : Nat) : FrameBuffer × Bool :=
  if b.getLsbD (7 - j) then
    (togglePixel acc.1 (spriteRow y0 k) (spriteCol x0 j),
      acc.2 || pixel acc.1 (spriteRow y0 k) (spriteCol x0 j))
  else acc

/-- Sprite row `k`, columns 0 to 7. -/
def drawRow (x0 y0 k : Nat) (b : Byte) (acc : FrameBuffer × Bool) : FrameBuffer × Bool :=
  (List.range 8).foldl (drawPixel x0 y0 k b) acc

/-- The rows from `k` on. -/
def drawRows (x0 y0 : Nat) : Nat → List Byte → FrameBuffer × Bool → FrameBuffer × Bool
  | _, [], acc => acc
  | k, b :: bs, acc => drawRows x0 y0 (k + 1) bs (drawRow x0 y0 k b acc)

/-- `draw(sprite_bytes, x0, y0) -> collision` (43_display R201): the framebuffer after, and the collision flag. -/
def drawSprite (bytes : List Byte) (x0 y0 : Nat) (fb : FrameBuffer) : FrameBuffer × Bool :=
  drawRows x0 y0 0 bytes (fb, false)

/-- The `n` bytes from `base` up (43_display R202, R208). -/
def spriteBytes (m : Memory) (base n : Nat) : List Byte := (List.range n).map (fun k => m.read (base + k))

end Sys2Proof.Machine
end

