-- ==== Sys2Proof/Machine/Display.lean ====
section
/-! DEFINITION. The display instructions (spec/43_display.md R200 to R208). -/

namespace Sys2Proof.Machine

/-- `00E0` (R200): VF is not written. -/
def exec00E0 (s : State) : Result := .next (s.setFb clearedFb)

/-- Draw `n` rows from `I` at (VX, VY); the coordinates are read before VF is written, and VF last (R202, R207). -/
def drawFromI (x y n : Nibble) (s : State) : State :=
  let drawn := drawSprite (spriteBytes s.mem (s.dataAddr 0) n.toNat) (s.getV x).toNat (s.getV y).toNat s.fb
  (s.setFb drawn.1).setFlag drawn.2

/-- `DXYN` (R202): with `n` = 0 no address is checked and VF becomes 0 (R204). -/
def execDXYN (x y n : Nibble) (s : State) : Result :=
  if n = 0 then .next (drawFromI x y n s)
  else withLastAddr (s.dataAddr (n.toNat - 1)) (fun s => .next (drawFromI x y n s)) s

end Sys2Proof.Machine
end

