-- ==== Sys2Proof/Machine/Index.lean ====
section
/-! DEFINITION. Index-register and memory instructions (spec/42_index_and_memory.md R180 to R186). -/

namespace Sys2Proof.Machine

/-- `ANNN` (R180). -/
def execANNN (nnn : Imm12) (s : State) : Result := .next (s.setI (zext12 nnn))

/-- `FX1E` (R181): modulo 65536, no flag (D10). -/
def execFX1E (x : Nibble) (s : State) : Result := .next (s.setI (s.i + zext8 (s.getV x)))

/-- `FX29` (R182): the whole value of VX, not its low nibble. -/
def execFX29 (x : Nibble) (s : State) : Result := .next (s.setI (zext8 (s.getV x) * 5))

/-- The three digits of a byte from `base` up (R183). -/
def storeBcd (m : Memory) (base : Nat) (b : Byte) : Memory :=
  ((m.write base (bcdHundreds b)).write (base + 1) (bcdTens b)).write (base + 2) (bcdOnes b)

/-- `FX33` (R183). -/
def execFX33 (x : Nibble) (s : State) : Result :=
  withLastAddr (s.dataAddr 2) (fun s => .next (s.setMem (storeBcd s.mem (s.dataAddr 0) (s.getV x)))) s

/-- `FX55` (R184): `I` is unchanged (D9). -/
def execFX55 (x : Nibble) (s : State) : Result :=
  withLastAddr (s.dataAddr x.toNat) (fun s => .next (s.setMem (storeRegs s (s.dataAddr 0) (x.toNat + 1)))) s

/-- `FX65` (R185): `I` is unchanged (D9). -/
def execFX65 (x : Nibble) (s : State) : Result :=
  withLastAddr (s.dataAddr x.toNat) (fun s => .next (loadRegs s (s.dataAddr 0) (x.toNat + 1))) s

end Sys2Proof.Machine
end

