-- ==== Sys2Proof/Machine/Keypad.lean ====
section
/-! DEFINITION. Keypad and timer instructions (spec/44_keypad_and_timers.md R220 to R227). -/

namespace Sys2Proof.Machine

/-- `EX9E` (R220). -/
def execEX9E (x : Nibble) (s : State) : Result :=
  withKeyIndex (s.getV x) (fun k s => skipIf (s.keyDown k) s) s

/-- `EXA1` (R221). -/
def execEXA1 (x : Nibble) (s : State) : Result :=
  withKeyIndex (s.getV x) (fun k s => skipIf (!s.keyDown k) s) s

/-- `FX07` (R223). -/
def execFX07 (x : Nibble) (s : State) : Result := .next (s.setV x s.dt)

/-- `FX0A` (R226): the key latch is not looked at and `V[x]` is not written; a later poll does both (40_step R124). -/
def execFX0A (x : Nibble) (s : State) : Result := .next (s.setMode (.awaitingKey x))

/-- `FX15` (R224). -/
def execFX15 (x : Nibble) (s : State) : Result := .next (s.setDt (s.getV x))

/-- `FX18` (R225): AUDIO is not touched. -/
def execFX18 (x : Nibble) (s : State) : Result := .next (s.setSt (s.getV x))

end Sys2Proof.Machine
end

