-- ==== Sys2Proof/Machine/Sequencer.lean ====
section
/-! DEFINITION. The frame sequencer's micro-steps (60_exceptions R262 to R268) and the invocation (40_step R120 to R124). -/

namespace Sys2Proof.Machine

/-- The execute stage (40_step R123): an illegal word raises `UnknownOpcode(op)`; PC has been advanced. -/
def execWord (op : Word) (s : State) : Result :=
  match decode op with
  | .ok i => exec i s
  | .error _ => raise .unknownOpcode op s

/-- The key-wait poll (40_step R124). -/
def keyWaitPoll (target : Nibble) (s : State) : State :=
  match leastKey s.keys with
  | none => s
  | some k => (s.setV target (BitVec.ofNat 8 k)).setMode .running

/-- `Invoke()` (40_step R120): a poll, or fetch, advance and execute. A fetch that fails leaves PC and raises
`AddressOutOfRange(PC)` (40_step R121). -/
def invoke (s : State) : Result :=
  match s.mode with
  | .awaitingKey t => .next (keyWaitPoll t s)
  | .running =>
    match fetch s with
    | none => raiseAt .addressOutOfRange s.pc s.pc s
    | some op => execWord op s.advancePc

/-- The position after invocation `k` (60_exceptions R263, R265). -/
def Seq.afterInvoke (k : Fin Config.cyclesPerFrame) : Seq :=
  if h : k.val + 1 < Config.cyclesPerFrame then .invoke ⟨k.val + 1, h⟩ else .tick

/-- The sequencer moves on after invocation `k`, unless it raised a fault: then the frame is truncated there
(60_exceptions R248, R270). -/
def finishInvoke (k : Fin Config.cyclesPerFrame) (s : State) : State :=
  match s.halt with
  | .none => s.setSeq (Seq.afterInvoke k)
  | .faulted _ _ _ => s
  | .stopped => s

/-- Invocation `k` of the frame (60_exceptions R265). -/
def invokeStep (k : Fin Config.cyclesPerFrame) (s : State) : Result :=
  match invoke s with
  | .next t => .next (finishInvoke k t)
  | .fault r => .fault r
  | .refused r => .refused r

/-- Frame start: the run flag first (60_exceptions R262); if it is set, the key sample (60_exceptions R264). -/
def frameStart (s : State) : State :=
  if s.runEnSample then
    { s with runEn := s.runEn.advance, keys := s.keysSample, keysIn := s.keysIn.advance, seq := .invoke ⟨0, by decide⟩ }
  else
    { s with runEn := s.runEn.advance, halt := .stopped }

/-- One tick of a timer, clamped at zero (60_exceptions R266). -/
def tickTimer (b : Byte) : Byte := if b = 0 then 0 else b - 1

/-- The timer tick, once per frame (60_exceptions R266, D1). -/
def timerTick (s : State) : State := { s with dt := tickTimer s.dt, st := tickTimer s.st, seq := .audioUpdate }

/-- The audio update, on the decremented `ST` (60_exceptions R267). -/
def audioUpdate (s : State) : State := { s with audio := decide (s.st ≠ 0), seq := .present }

/-- Present changes nothing in the core (60_exceptions R268); the frame is over (R263). -/
def presentFrame (s : State) : State := s.setSeq .frameStart

/-- One micro-step of the frame (60_exceptions R263), on a core that is not halted. -/
def seqStep (s : State) : Result :=
  match s.seq with
  | .frameStart => .next (frameStart s)
  | .invoke k => invokeStep k s
  | .tick => .next (timerTick s)
  | .audioUpdate => .next (audioUpdate s)
  | .present => .next (presentFrame s)

/-- Memory with a word stored at an address, high byte first (20_memory R61). -/
def storeWord (m : Memory) (a : Nat) (op : Word) : Memory :=
  (m.write a (op.extractLsb' 8 8)).write (a + 1) (op.extractLsb' 0 8)

/-- An address the fetch accepts: `pc` itself, or the program base where `pc` is above 0xFFE (40_step R121). -/
def fetchablePc (pc : Word) : Word := if inMemory (pc.toNat + 1) then pc else BitVec.ofNat 16 Config.progBase

/-- The position of an invocation: `q` itself if it is one, else the frame's first. -/
def invokePos (q : Seq) : Seq :=
  match q with
  | .invoke k => .invoke k
  | .frameStart => .invoke ⟨0, by decide⟩
  | .tick => .invoke ⟨0, by decide⟩
  | .audioUpdate => .invoke ⟨0, by decide⟩
  | .present => .invoke ⟨0, by decide⟩

/-- The state in which the next micro-step is an invocation that fetches `op` at PC (log entry 8). -/
def placeWord (s : State) (op : Word) : State :=
  { s with mem := storeWord s.mem (fetchablePc s.pc).toNat op, pc := fetchablePc s.pc, mode := .running, halt := .none,
           seq := invokePos s.seq }

end Sys2Proof.Machine
end

