-- ==== Sys2Proof/Machine/Step.lean ====
section
/-! DEFINITION. One step of the machine: one micro-step of the frame sequencer (00_scope R6, R13; 60_exceptions R263). -/

namespace Sys2Proof.Machine

/-- A halted core has no step (40_step R125; 10_state R38); any other takes one micro-step of the frame. -/
def step (s : State) : Host.Outcome State Fault Refusal :=
  match s.halt with
  | .none => seqStep s
  | .faulted kind info faultPc => .fault (.coreFaulted kind info faultPc)
  | .stopped => .fault .coreStopped

/-- The state with the table's word where the next step fetches it: stored at PC, with the sequencer at an invocation, the
mode Running and the core not halted (log entry 8). -/
def State.withFetchWord (s : State) (nbits w : Nat) : State := placeWord s (tableWord nbits w)

end Sys2Proof.Machine
end

