-- ==== Sys2Proof/Machine/Boot.lean ====
section
/-! DEFINITION. What the host does outside the steps: reset and the ROM load (70_reset R280 to R284; 60_exceptions R273).
The boot order is reset, then exactly one load, then frames: `boot`. No step is a load (log entry 7). -/

namespace Sys2Proof.Machine

/-- `MEM[base + i] <- rom[i]`, ascending. -/
def copyBytes (m : Memory) (base : Nat) : List Byte → Memory
  | [] => m
  | b :: rest => copyBytes (m.write base b) (base + 1) rest

/-- `load(rom)` (70_reset R283): `RomTooLarge` with the length modulo 65536, PC as it stands and no byte written
(60_exceptions R241, R242); else the image verbatim at 0x200 and nothing else. -/
def State.loadRom (rom : List Byte) (s : State) : State :=
  if rom.length ≤ Config.romMax then s.setMem (copyBytes s.mem Config.progBase rom)
  else s.setHalt (.faulted .romTooLarge (BitVec.ofNat 16 rom.length) s.pc)

/-- Reset, then one load (70_reset R284). -/
def boot (rom : List Byte) : State := State.reset.loadRom rom

/-- The `reset` input (70_reset R280; 60_exceptions R249): every field of the core to its reset value. The input sequences
are the environment's and go on (log entry 7). -/
def State.hostReset (s : State) : State :=
  { State.reset with runEn := s.runEn, keysIn := s.keysIn, randIn := s.randIn }

end Sys2Proof.Machine
end

