-- ==== Sys2Proof/Machine/Outputs.lean ====
section
/-! DEFINITION. The output ports, read off the state (60_exceptions R260, R273). -/

namespace Sys2Proof.Machine

/-- The numeric fault codes (60_exceptions R241, D12). -/
def FaultKind.code : FaultKind → BitVec 3
  | .romTooLarge => 1
  | .stackOverflow => 2
  | .stackUnderflow => 3
  | .unknownOpcode => 4
  | .addressOutOfRange => 5
  | .keyIndexOutOfRange => 6

/-- `audio_on` = AUDIO. -/
def State.audioOn (s : State) : Bool := s.audio

/-- `fb_out` = FB. -/
def State.fbOut (s : State) : FrameBuffer := s.fb

/-- `present`: the step taken from this state pulses it (60_exceptions R268). -/
def State.presentPulse (s : State) : Bool := decide (s.halt = .none) && decide (s.seq = .present)

/-- `halted`: HALT is not None (00_scope R16). -/
def State.halted (s : State) : Bool := decide (s.halt ≠ .none)

/-- `fault_code`; 0 is no fault, also when Stopped (60_exceptions R241; 95_test_vectors F6). -/
def State.faultCode (s : State) : BitVec 3 :=
  match s.halt with
  | .none => 0
  | .faulted kind _ _ => kind.code
  | .stopped => 0

/-- `fault_info`; no value unless Faulted (10_state R35; log entry 9). -/
def State.faultInfo (s : State) : Option Word :=
  match s.halt with
  | .none => none
  | .faulted _ info _ => some info
  | .stopped => none

/-- `fault_pc`; no value unless Faulted (10_state R35; log entry 9). -/
def State.faultPcOut (s : State) : Option Word :=
  match s.halt with
  | .none => none
  | .faulted _ _ faultPc => some faultPc
  | .stopped => none

end Sys2Proof.Machine
end

