-- ==== Sys2Proof/Safety.lean ====
section
/-! DEFINITION. The terms claims use: safe states, the invariant, frames, and the tables of what each rule lets its
instruction write. -/

namespace Sys2Proof.Machine

/-- A state of a safe run: no fault has been raised; `Stopped` is a normal end (60_exceptions R248, R262). -/
def State.Safe (s : State) : Prop := ∀ kind info faultPc, s.halt ≠ .faulted kind info faultPc

/-- The invariant (10_state R40, R27): memory in canonical form, PC at most 0x10FE, every valid stack entry at most 0x1000.
The other bounds of R40 are types of State's fields. -/
def State.Inv (s : State) : Prop :=
  s.mem.wf = true ∧ s.pc.toNat ≤ 0x10FE ∧ ∀ k : Fin 16, k.val < s.sp.val → s.stack[k].toNat ≤ 0x1000

/-! ### Frames -/

/-- The parts of the state an instruction may write beside the `V` registers and memory. -/
inductive Part where
  | pc
  | index
  | stack
  | delay
  | sound
  | display
  | mode
  | halt
  | random
  deriving DecidableEq, Repr

/-- No register. -/
def noReg : Nibble → Prop := fun _ => False

/-- No address. -/
def noAddr : Nat → Prop := fun _ => False

/-- From `s` to `t` nothing changed but the registers `vw`, the bytes of memory at the addresses `mw`, and the parts listed.
`KEYS`, `AUDIO`, `SEQ` and the inputs `run_en` and `keys_in` are no part: no instruction writes them (40_step R123). -/
def Frame (vw : Nibble → Prop) (mw : Nat → Prop) (parts : List Part) (s t : State) : Prop :=
  (∀ r, ¬ vw r → t.getV r = s.getV r) ∧
  (∀ a, ¬ mw a → t.mem.read a = s.mem.read a) ∧
  (.pc ∉ parts → t.pc = s.pc) ∧
  (.index ∉ parts → t.i = s.i) ∧
  (.stack ∉ parts → t.sp = s.sp ∧ t.stack = s.stack) ∧
  (.delay ∉ parts → t.dt = s.dt) ∧
  (.sound ∉ parts → t.st = s.st) ∧
  (.display ∉ parts → t.fb = s.fb) ∧
  (.mode ∉ parts → t.mode = s.mode) ∧
  (.halt ∉ parts → t.halt = s.halt) ∧
  (.random ∉ parts → t.randIn = s.randIn) ∧
  t.keys = s.keys ∧ t.audio = s.audio ∧ t.seq = s.seq ∧ t.runEn = s.runEn ∧ t.keysIn = s.keysIn

/-- The `V` registers each instruction may write (10_state R22). -/
def writesV : Instr → Nibble → Prop
  | .op00E0 => noReg
  | .op00EE => noReg
  | .op0NNN _ => noReg
  | .op1NNN _ => noReg
  | .op2NNN _ => noReg
  | .op3XNN _ _ => noReg
  | .op4XNN _ _ => noReg
  | .op5XY0 _ _ => noReg
  | .op6XNN x _ => fun r => r = x
  | .op7XNN x _ => fun r => r = x
  | .op8XY0 x _ => fun r => r = x
  | .op8XY1 x _ => fun r => r = x
  | .op8XY2 x _ => fun r => r = x
  | .op8XY3 x _ => fun r => r = x
  | .op8XY4 x _ => fun r => r = x ∨ r = flagReg
  | .op8XY5 x _ => fun r => r = x ∨ r = flagReg
  | .op8XY6 x _ => fun r => r = x ∨ r = flagReg
  | .op8XY7 x _ => fun r => r = x ∨ r = flagReg
  | .op8XYE x _ => fun r => r = x ∨ r = flagReg
  | .op9XY0 _ _ => noReg
  | .opANNN _ => noReg
  | .opBNNN _ => noReg
  | .opCXNN x _ => fun r => r = x
  | .opDXYN _ _ _ => fun r => r = flagReg
  | .opEX9E _ => noReg
  | .opEXA1 _ => noReg
  | .opFX07 x => fun r => r = x
  | .opFX0A _ => noReg
  | .opFX15 _ => noReg
  | .opFX18 _ => noReg
  | .opFX1E _ => noReg
  | .opFX29 _ => noReg
  | .opFX33 _ => noReg
  | .opFX55 _ => noReg
  | .opFX65 x => fun r => r.toNat ≤ x.toNat

/-- The addresses each instruction may store to from state `s` (20_memory R66; 42_index R183, R184). -/
def writesMem (s : State) : Instr → Nat → Prop
  | .op00E0 => noAddr
  | .op00EE => noAddr
  | .op0NNN _ => noAddr
  | .op1NNN _ => noAddr
  | .op2NNN _ => noAddr
  | .op3XNN _ _ => noAddr
  | .op4XNN _ _ => noAddr
  | .op5XY0 _ _ => noAddr
  | .op6XNN _ _ => noAddr
  | .op7XNN _ _ => noAddr
  | .op8XY0 _ _ => noAddr
  | .op8XY1 _ _ => noAddr
  | .op8XY2 _ _ => noAddr
  | .op8XY3 _ _ => noAddr
  | .op8XY4 _ _ => noAddr
  | .op8XY5 _ _ => noAddr
  | .op8XY6 _ _ => noAddr
  | .op8XY7 _ _ => noAddr
  | .op8XYE _ _ => noAddr
  | .op9XY0 _ _ => noAddr
  | .opANNN _ => noAddr
  | .opBNNN _ => noAddr
  | .opCXNN _ _ => noAddr
  | .opDXYN _ _ _ => noAddr
  | .opEX9E _ => noAddr
  | .opEXA1 _ => noAddr
  | .opFX07 _ => noAddr
  | .opFX0A _ => noAddr
  | .opFX15 _ => noAddr
  | .opFX18 _ => noAddr
  | .opFX1E _ => noAddr
  | .opFX29 _ => noAddr
  | .opFX33 _ => fun a => s.dataAddr 0 ≤ a ∧ a ≤ s.dataAddr 2
  | .opFX55 x => fun a => s.dataAddr 0 ≤ a ∧ a ≤ s.dataAddr x.toNat
  | .opFX65 _ => noAddr

/-- The other parts each instruction may write (10_state R25, R28, R29, R35; 60_exceptions R241 for HALT). -/
def writesParts : Instr → List Part
  | .op00E0 => [.display]
  | .op00EE => [.pc, .stack, .halt]
  | .op0NNN _ => []
  | .op1NNN _ => [.pc]
  | .op2NNN _ => [.pc, .stack, .halt]
  | .op3XNN _ _ => [.pc]
  | .op4XNN _ _ => [.pc]
  | .op5XY0 _ _ => [.pc]
  | .op6XNN _ _ => []
  | .op7XNN _ _ => []
  | .op8XY0 _ _ => []
  | .op8XY1 _ _ => []
  | .op8XY2 _ _ => []
  | .op8XY3 _ _ => []
  | .op8XY4 _ _ => []
  | .op8XY5 _ _ => []
  | .op8XY6 _ _ => []
  | .op8XY7 _ _ => []
  | .op8XYE _ _ => []
  | .op9XY0 _ _ => [.pc]
  | .opANNN _ => [.index]
  | .opBNNN _ => [.pc]
  | .opCXNN _ _ => [.random]
  | .opDXYN _ _ _ => [.display, .halt]
  | .opEX9E _ => [.pc, .halt]
  | .opEXA1 _ => [.pc, .halt]
  | .opFX07 _ => []
  | .opFX0A _ => [.mode]
  | .opFX15 _ => [.delay]
  | .opFX18 _ => [.sound]
  | .opFX1E _ => [.index]
  | .opFX29 _ => [.index]
  | .opFX33 _ => [.halt]
  | .opFX55 _ => [.halt]
  | .opFX65 _ => [.halt]

/-! ### Words for single claims -/

/-- The illegal words, class by class (30_encoding R99). -/
def IllegalWord (op : Word) : Prop :=
  (op.toNat / 4096 = 0x5 ∧ op.toNat % 16 ≠ 0) ∨
  (op.toNat / 4096 = 0x8 ∧ op.toNat % 16 ∈ [0x8, 0x9, 0xA, 0xB, 0xC, 0xD, 0xF]) ∨
  (op.toNat / 4096 = 0x9 ∧ op.toNat % 16 ≠ 0) ∨
  (op.toNat / 4096 = 0xE ∧ op.toNat % 256 ∉ [0x9E, 0xA1]) ∨
  (op.toNat / 4096 = 0xF ∧ op.toNat % 256 ∉ [0x07, 0x0A, 0x15, 0x18, 0x1E, 0x29, 0x33, 0x55, 0x65])

/-- Pixel (`r`, `c`) lies in the wrapped footprint of the sprite `bytes` at column `x0`, row `y0`: some row `k` and column
`j` of the sprite falls on it and bit `7 - j` of the row's byte is 1 (43_display R201, R205). -/
def InFootprint (bytes : List Byte) (x0 y0 : Nat) (r : Fin 32) (c : Fin 64) : Prop :=
  ∃ k j : Nat, ∃ b : Byte, bytes[k]? = some b ∧ j < 8 ∧ b.getLsbD (7 - j) = true ∧
    r.val = (y0 + k) % 32 ∧ c.val = (x0 + j) % 64

/-- The state is about to run invocation `k` of a frame in mode Running, on a core that is not halted. -/
def State.Fetching (s : State) (k : Fin Config.cyclesPerFrame) : Prop :=
  s.halt = .none ∧ s.seq = .invoke k ∧ s.mode = .running

/-- The word memory holds at an address, high byte first (20_memory R61). -/
def wordAt (m : Memory) (a : Nat) : Word := wordOfBytes (m.read a) (m.read (a + 1))

end Sys2Proof.Machine
end

