-- ==== Sys2Proof/Certificates/Slice0/Obligations.lean ====
section
/-! DEFINITION. The statements for the provers, from the numbered rules of spec/. A docstring says which rule or section a
statement formalises and, where a clause rests on a decision or inference the spec marks as its own, which one. In `exec i s`
the program counter of `s` is already the instruction's address plus 2 (00_scope R11; log entry 1), and a fault of the spec is a
next state with `HALT` set (log entry 4, the model's reading). -/

open Sys2Proof Sys2Proof.Machine

/-! ### Encoding -/

/-- 30_encoding sections 2 and 3: no bit of an encoding is dropped. -/
def Obligations.DecodeEncodeRoundTrip : Prop :=
  ∀ (i : Instr) (rest : List Byte), i.wf = true →
    decode (encode i) = .ok i ∧ decodeBytes (encodeBytes i ++ rest) = .ok (i, rest)

/-- 30_encoding section 3: every legal word has exactly one meaning. -/
def Obligations.EncodeDecodeRoundTrip : Prop :=
  ∀ (op : Word) (i : Instr), decode op = .ok i → i.wf = true ∧ encode i = op

/-- 30_encoding section 3, the decode procedure, with the fields taken by division: group by group (groups 5 and 9 with a
low nibble other than 0: decision D11, see IllegalWordsRejected). -/
def Obligations.DecodeFollowsProcedure : Prop :=
  ∀ op : Word, ∀ (g n nn : Nat) (x y lowN : Nibble) (byte : Byte) (nnn : Imm12),
    g = op.toNat / 4096 → x = BitVec.ofNat 4 (op.toNat / 256) → y = BitVec.ofNat 4 (op.toNat / 16) →
    n = op.toNat % 16 → lowN = BitVec.ofNat 4 n → nn = op.toNat % 256 → byte = BitVec.ofNat 8 nn →
    nnn = BitVec.ofNat 12 op.toNat →
    (op = 0x00E0#16 → decode op = .ok .op00E0) ∧
    (op = 0x00EE#16 → decode op = .ok .op00EE) ∧
    (g = 0x0 → op ≠ 0x00E0#16 → op ≠ 0x00EE#16 → decode op = .ok (.op0NNN nnn)) ∧
    (g = 0x1 → decode op = .ok (.op1NNN nnn)) ∧
    (g = 0x2 → decode op = .ok (.op2NNN nnn)) ∧
    (g = 0x3 → decode op = .ok (.op3XNN x byte)) ∧
    (g = 0x4 → decode op = .ok (.op4XNN x byte)) ∧
    (g = 0x5 → n = 0 → decode op = .ok (.op5XY0 x y)) ∧
    (g = 0x6 → decode op = .ok (.op6XNN x byte)) ∧
    (g = 0x7 → decode op = .ok (.op7XNN x byte)) ∧
    (g = 0x8 → n = 0x0 → decode op = .ok (.op8XY0 x y)) ∧
    (g = 0x8 → n = 0x1 → decode op = .ok (.op8XY1 x y)) ∧
    (g = 0x8 → n = 0x2 → decode op = .ok (.op8XY2 x y)) ∧
    (g = 0x8 → n = 0x3 → decode op = .ok (.op8XY3 x y)) ∧
    (g = 0x8 → n = 0x4 → decode op = .ok (.op8XY4 x y)) ∧
    (g = 0x8 → n = 0x5 → decode op = .ok (.op8XY5 x y)) ∧
    (g = 0x8 → n = 0x6 → decode op = .ok (.op8XY6 x y)) ∧
    (g = 0x8 → n = 0x7 → decode op = .ok (.op8XY7 x y)) ∧
    (g = 0x8 → n = 0xE → decode op = .ok (.op8XYE x y)) ∧
    (g = 0x9 → n = 0 → decode op = .ok (.op9XY0 x y)) ∧
    (g = 0xA → decode op = .ok (.opANNN nnn)) ∧
    (g = 0xB → decode op = .ok (.opBNNN nnn)) ∧
    (g = 0xC → decode op = .ok (.opCXNN x byte)) ∧
    (g = 0xD → decode op = .ok (.opDXYN x y lowN)) ∧
    (g = 0xE → nn = 0x9E → decode op = .ok (.opEX9E x)) ∧
    (g = 0xE → nn = 0xA1 → decode op = .ok (.opEXA1 x)) ∧
    (g = 0xF → nn = 0x07 → decode op = .ok (.opFX07 x)) ∧
    (g = 0xF → nn = 0x0A → decode op = .ok (.opFX0A x)) ∧
    (g = 0xF → nn = 0x15 → decode op = .ok (.opFX15 x)) ∧
    (g = 0xF → nn = 0x18 → decode op = .ok (.opFX18 x)) ∧
    (g = 0xF → nn = 0x1E → decode op = .ok (.opFX1E x)) ∧
    (g = 0xF → nn = 0x29 → decode op = .ok (.opFX29 x)) ∧
    (g = 0xF → nn = 0x33 → decode op = .ok (.opFX33 x)) ∧
    (g = 0xF → nn = 0x55 → decode op = .ok (.opFX55 x)) ∧
    (g = 0xF → nn = 0x65 → decode op = .ok (.opFX65 x))

/-- 30_encoding section 4: the illegal words are exactly the five classes (groups 5 and 9: decision D11). -/
def Obligations.IllegalWordsRejected : Prop :=
  ∀ op : Word, decode op = .error (.unknownOpcode op) ↔ IllegalWord op

/-- Words written out from the encodings of 30_encoding section 3, one per family: a sanity statement. -/
def Obligations.WrittenOutWordsDecode : Prop :=
  decode 0x00E0#16 = .ok .op00E0 ∧ decode 0x0123#16 = .ok (.op0NNN 0x123) ∧
  decode 0x2300#16 = .ok (.op2NNN 0x300) ∧ decode 0x6A05#16 = .ok (.op6XNN 0xA 0x05) ∧
  decode 0x8127#16 = .ok (.op8XY7 0x1 0x2) ∧ decode 0xA210#16 = .ok (.opANNN 0x210) ∧
  decode 0xC30F#16 = .ok (.opCXNN 0x3 0x0F) ∧ decode 0xD015#16 = .ok (.opDXYN 0x0 0x1 0x5) ∧
  decode 0xE1A1#16 = .ok (.opEXA1 0x1) ∧ decode 0xF533#16 = .ok (.opFX33 0x5)

/-! ### The invocation -/

/-- R61: fetch is big-endian, from the current contents of memory. -/
def Obligations.FetchIsBigEndian : Prop :=
  ∀ s : State, s.pc.toNat ≤ 0xFFE → ∃ op : Word, fetch s = some op ∧
    op.toNat = (s.mem.read s.pc.toNat).toNat * 256 + (s.mem.read (s.pc.toNat + 1)).toNat ∧
    op.extractLsb' 8 8 = s.mem.read s.pc.toNat ∧ op.extractLsb' 0 8 = s.mem.read (s.pc.toNat + 1)

/-- 40_step section 1 and 60_exceptions section 6: a step runs the decoded instruction on the state whose PC is 2 further;
then the sequencer goes to the next invocation, after the last one to Tick, unless a fault was raised. -/
def Obligations.StepRunsDecodedInstr : Prop :=
  ∀ (s : State) (k : Fin Config.cyclesPerFrame) (i : Instr), s.Fetching k → s.pc.toNat ≤ 0xFFE → i.wf = true →
    decode (wordAt s.mem s.pc.toNat) = .ok i →
    step s = match exec i { s with pc := s.pc + 2 } with
      | .next t =>
        .next (if t.halt = .none then { t with seq := if h : k.val + 1 < 8 then .invoke ⟨k.val + 1, h⟩ else .tick } else t)
      | .fault r => .fault r
      | .refused r => .refused r

/-- 40_step section 1 (decisions D5, D12): a fetch above 0xFFE faults with PC unchanged and nothing else changed. -/
def Obligations.FetchOutOfRangeFaults : Prop :=
  ∀ (s : State) (k : Fin Config.cyclesPerFrame), s.Fetching k → 0xFFE < s.pc.toNat →
    step s = .next { s with halt := .faulted .addressOutOfRange s.pc s.pc }

/-- 60_exceptions section 1, 40_step section 1 (decisions D11, D12): an illegal word at PC faults with PC advanced, the
word as info, and nothing else changed. -/
def Obligations.IllegalWordFaults : Prop :=
  ∀ (s : State) (k : Fin Config.cyclesPerFrame), s.Fetching k → s.pc.toNat ≤ 0xFFE →
    IllegalWord (wordAt s.mem s.pc.toNat) →
    step s = .next { s with pc := s.pc + 2, halt := .faulted .unknownOpcode (wordAt s.mem s.pc.toNat) s.pc }

/-- 40_step section 1: a halted core has no step, however often it is asked. That the answer is the interface's fault, with
the record of `HALT` or `coreStopped`, is the model's reading (log entry 4); the spec says that there is no step. -/
def Obligations.HaltedCoreHasNoStep : Prop :=
  ∀ (s : State) (n : Nat),
    (∀ kind info fpc, s.halt = .faulted kind info fpc → core.run (n + 1) s = .fault (.coreFaulted kind info fpc)) ∧
    (s.halt = .stopped → core.run (n + 1) s = .fault .coreStopped)

/-- R124: the key-wait poll. With no key in the latch nothing changes but the sequencer's position; else the least pressed
key goes to the target and the mode is Running; PC is not changed. -/
def Obligations.KeyWaitPollTakesLeastKey : Prop :=
  ∀ (s : State) (k : Fin Config.cyclesPerFrame) (t : Nibble), s.halt = .none → s.seq = .invoke k →
    s.mode = .awaitingKey t →
    (s.keys = 0 → step s = .next { s with seq := Seq.afterInvoke k }) ∧
    (∀ j : Nat, j < 16 → s.keys.getLsbD j = true → (∀ l < j, s.keys.getLsbD l = false) →
      ∃ u, step s = .next u ∧ (u.getV t).toNat = j ∧ u.mode = .running ∧
        Frame (fun r => r = t) noAddr [.mode] { s with seq := Seq.afterInvoke k } u)

/-! ### The frame -/

/-- 60_exceptions section 5 (decision D14): the run flag is sampled first; clear, the core stops and does nothing more. -/
def Obligations.ClearRunFlagStops : Prop :=
  ∀ s : State, s.halt = .none → s.seq = .frameStart → s.runEnSample = false →
    step s = .next { s with halt := .stopped, runEn := s.runEn.advance }

/-- 60_exceptions section 6: the key sample. The latch takes all 16 bits of the next `keys_in` sample at the frame start,
before the first invocation; no other step changes it. The port the samples come from is the model's own (log entry 3). -/
def Obligations.KeysSampledOnceAFrame : Prop :=
  (∀ s : State, s.halt = .none → s.seq = .frameStart → s.runEnSample = true →
    ∃ t, step s = .next t ∧ t.keys = s.keysSample ∧ (∃ h, t.seq = .invoke ⟨0, h⟩) ∧ t.keysIn = s.keysIn.advance) ∧
  (∀ s t : State, step s = .next t →
    (t.keys = s.keys ∧ t.keysIn = s.keysIn) ∨ (s.seq = .frameStart ∧ s.runEnSample = true))

/-- 60_exceptions section 6 (decision D1): the tick takes 1 from each timer, floored at 0, and changes nothing else. -/
def Obligations.TickDecrementsTimers : Prop :=
  ∀ s : State, s.halt = .none → s.seq = .tick → ∃ t, step s = .next t ∧
    t.dt.toNat = s.dt.toNat - 1 ∧ t.st.toNat = s.st.toNat - 1 ∧
    t = { s with dt := t.dt, st := t.st, seq := .audioUpdate }

/-- 60_exceptions section 6: the audio update sets the gate to `ST > 0`, on the decremented ST, and changes nothing else. -/
def Obligations.AudioGateFollowsSoundTimer : Prop :=
  ∀ s : State, s.halt = .none → s.seq = .audioUpdate → ∃ t, step s = .next t ∧
    (t.audio = true ↔ 0 < s.st.toNat) ∧ t = { s with audio := t.audio, seq := .present }

/-- R268: present is the frame's last step; it pulses and changes nothing in the core; `fb_out` is FB. -/
def Obligations.PresentChangesNothing : Prop :=
  ∀ s : State, (s.presentPulse = true ↔ s.halt = .none ∧ s.seq = .present) ∧ s.fbOut = s.fb ∧
    (s.presentPulse = true → step s = .next { s with seq := .frameStart })

/-- 60_exceptions sections 5 and 6, 10_state section 7 (decisions D1, D15): over every step, AUDIO changes only at the audio
update, DT and ST only at the tick or in an invocation, the framebuffer, memory, registers, I and stack only in an
invocation. -/
def Obligations.EachStepWritesItsOwnState : Prop :=
  ∀ s t : State, step s = .next t →
    (t.audio = s.audio ∨ s.seq = .audioUpdate) ∧
    ((t.dt = s.dt ∧ t.st = s.st) ∨ s.seq = .tick ∨ ∃ k, s.seq = .invoke k) ∧
    ((t.fb = s.fb ∧ t.mem = s.mem ∧ t.v = s.v ∧ t.i = s.i ∧ t.pc = s.pc ∧ t.sp = s.sp ∧ t.stack = s.stack ∧
      t.mode = s.mode) ∨ ∃ k, s.seq = .invoke k)

/-- 60_exceptions section 6: one whole frame. From a frame start with the run flag set, either twelve steps bring the next
frame start, with the keys sampled once and the gate at `ST > 0`, or the core raised a fault in one of its eight invocations
(steps 2 to 9) and has no further step. The ports of `run_en` and `keys_in` are the model's own (log entry 3), and one step is
one micro-step of the frame (log entry 2). -/
def Obligations.FrameCompletesOrFaults : Prop :=
  ∀ s : State, s.halt = .none → s.seq = .frameStart → s.runEnSample = true →
    (∃ t, core.run 12 s = .next t ∧ t.halt = .none ∧ t.seq = .frameStart ∧ t.keys = s.keysSample ∧
      (t.audio = true ↔ 0 < t.st.toNat) ∧ t.runEn = s.runEn.advance ∧ t.keysIn = s.keysIn.advance) ∨
    (∃ (m : Nat) (t : State) (kind : FaultKind) (info fpc : Word), 2 ≤ m ∧ m ≤ 9 ∧ core.run m s = .next t ∧
      t.halt = .faulted kind info fpc ∧ core.run 12 s = .fault (.coreFaulted kind info fpc))

/-! ### The whole machine -/

/-- 60_exceptions sections 1 and 4: every instruction answers a next state in every state, and a core that is not halted
always has a step. This is the model's reading: a fault of the spec is a next state with `HALT` set (log entry 4), and `exec`
does not look at `HALT` (log entry 13), so the first clause speaks of halted states too, which no step hands to `exec`. -/
def Obligations.EveryInstrAnswersNext : Prop :=
  (∀ (i : Instr) (s : State), ∃ t, exec i s = .next t) ∧
  (∀ s : State, s.halt = .none → ∃ t, step s = .next t)

/-- The invariant at reset (10_state section 8). -/
def Obligations.ResetMeetsStateBounds : Prop := State.reset.Inv

/-- The invariant after reset and any ROM load (10_state section 8, 70_reset section 2). -/
def Obligations.BootMeetsStateBounds : Prop := ∀ rom : List Byte, (boot rom).Inv

/-- 10_state section 8 (an inference the spec marks as its own): every step keeps the invariant: memory canonical, PC at
most 0x10FE, every valid stack entry at most 0x1000. -/
def Obligations.StepKeepsStateBounds : Prop := ∀ s t : State, s.Inv → step s = .next t → t.Inv

/-- 40_step section 1 and 60_exceptions sections 1 and 2 (decision D12): a fault is precise, and only the named
instructions raise the named fault, under the named condition. -/
def Obligations.FaultsArePrecise : Prop :=
  ∀ (i : Instr) (s t : State), s.halt = .none → exec i s = .next t → t.halt ≠ .none →
    ∃ kind info, t = { s with halt := .faulted kind info (s.pc - 2) } ∧
      ((kind = .stackOverflow ∧ (∃ nnn, i = .op2NNN nnn) ∧ info = encode i ∧ s.sp.val = 16) ∨
       (kind = .stackUnderflow ∧ i = .op00EE ∧ info = 0x00EE#16 ∧ s.sp.val = 0) ∨
       (kind = .addressOutOfRange ∧ ∃ last, 0xFFF < last ∧ info = BitVec.ofNat 16 last ∧
         ((∃ x y n, i = .opDXYN x y n ∧ 0 < n.toNat ∧ last = s.i.toNat + n.toNat - 1) ∨
          (∃ x, i = .opFX33 x ∧ last = s.i.toNat + 2) ∨
          (∃ x, (i = .opFX55 x ∨ i = .opFX65 x) ∧ last = s.i.toNat + x.toNat))) ∨
       (kind = .keyIndexOutOfRange ∧ ∃ x, (i = .opEX9E x ∨ i = .opEXA1 x) ∧ 15 < (s.getV x).toNat ∧
         info.toNat = (s.getV x).toNat))

/-- The frame of every instruction (10_state sections 2, 5 and 7, 20_memory section 5): it writes only the registers, bytes
and parts its rule names. `KEYS`, `AUDIO`, `SEQ` and the frame's inputs it never writes. -/
def Obligations.InstrWritesOnlyItsOwn : Prop :=
  ∀ (i : Instr) (s t : State), exec i s = .next t → Frame (writesV i) (writesMem s i) (writesParts i) s t

/-- 10_state section 3: whatever the operands, the six flag writers leave VF at exactly 0x00 or 0x01 where no fault is
raised (with `x` = 0xF the flag remains: decision D7). -/
def Obligations.FlagIsZeroOrOne : Prop :=
  ∀ (i : Instr) (s t : State), s.halt = .none → exec i s = .next t → t.halt = .none →
    (∃ x y, i = .op8XY4 x y ∨ i = .op8XY5 x y ∨ i = .op8XY6 x y ∨ i = .op8XY7 x y ∨ i = .op8XYE x y ∨
      ∃ n, i = .opDXYN x y n) →
    t.getV 0xF = 0x00 ∨ t.getV 0xF = 0x01

/-- 44_keypad section 2 and 10_state section 7: no instruction reads ST. With another value in ST an instruction does the
same and leaves that value, but FX18, which overwrites it and does the same altogether. -/
def Obligations.NoInstrReadsSoundTimer : Prop :=
  ∀ (i : Instr) (s t : State) (b : Byte), exec i s = .next t →
    ((∀ x, i ≠ .opFX18 x) → exec i { s with st := b } = .next { t with st := b }) ∧
    ((∃ x, i = .opFX18 x) → exec i { s with st := b } = .next t)

/-- 10_state sections 6 and 7, 41_alu section 4: the key latch is read only by EX9E and EXA1, the random input (its port
is the model's own: log entry 3) only by CXNN, the framebuffer only by DXYN (and overwritten by 00E0). -/
def Obligations.InputsReadOnlyWhereNamed : Prop :=
  ∀ (i : Instr) (s t : State), exec i s = .next t →
    (∀ k : Word, (∀ x, i ≠ .opEX9E x ∧ i ≠ .opEXA1 x) → exec i { s with keys := k } = .next { t with keys := k }) ∧
    (∀ p : Port Byte, (∀ x nn, i ≠ .opCXNN x nn) → exec i { s with randIn := p } = .next { t with randIn := p }) ∧
    (∀ f : FrameBuffer, i ≠ .op00E0 → (∀ x y n, i ≠ .opDXYN x y n) →
      exec i { s with fb := f } = .next { t with fb := f })

/-! ### Control transfer -/

/-- R100: every word of group 0 but 00E0 and 00EE is a no-operation whose only effect is PC + 2 (the sequencer then goes on);
a run of them ends where the fetch at 0x1000 faults. -/
def Obligations.GroupZeroIsNoOperation : Prop :=
  (∀ (nnn : Imm12) (s : State), exec (.op0NNN nnn) s = .next s) ∧
  (∀ (s : State) (k : Fin Config.cyclesPerFrame), s.Fetching k → s.pc.toNat ≤ 0xFFE →
    (wordAt s.mem s.pc.toNat).toNat ≤ 0x0FFF → wordAt s.mem s.pc.toNat ≠ 0x00E0#16 →
    wordAt s.mem s.pc.toNat ≠ 0x00EE#16 →
    step s = .next { s with pc := s.pc + 2, seq := Seq.afterInvoke k }) ∧
  (∀ (s : State) (k : Fin Config.cyclesPerFrame), s.Fetching k → s.pc = 0x1000#16 →
    ∃ t info fpc, step s = .next t ∧ t.halt = .faulted .addressOutOfRange info fpc)

/-- R131: 00EE; a popped value above 0xFFE makes the next fetch fail. -/
def Obligations.ReturnPopsStack : Prop :=
  encode .op00EE = 0x00EE#16 ∧ ∀ s : State,
    (∀ (_ : 0 < s.sp.val), ∃ t, exec .op00EE s = .next t ∧ t.sp.val = s.sp.val - 1 ∧
      t.pc = s.stack[s.sp.val - 1]'(by omega) ∧ t.stack = s.stack ∧
      (0xFFE < t.pc.toNat → fetch t = none) ∧ Frame noReg noAddr [.pc, .stack] s t) ∧
    (s.sp.val = 0 → ∃ fpc, exec .op00EE s = .next { s with halt := .faulted .stackUnderflow 0x00EE#16 fpc })

/-- 40_step section 2 (the pushed PC being the address of the next instruction is an inference the spec marks as its own;
fault_pc: decision D12): 2NNN. -/
def Obligations.CallPushesReturnAddress : Prop :=
  ∀ (nnn : Imm12) (s : State),
    (∀ (h : s.sp.val < 16), ∃ t, exec (.op2NNN nnn) s = .next t ∧ t.sp.val = s.sp.val + 1 ∧
      t.stack[s.sp.val] = s.pc ∧ (∀ k : Fin 16, k.val ≠ s.sp.val → t.stack[k] = s.stack[k]) ∧
      t.pc.toNat = nnn.toNat ∧ Frame noReg noAddr [.pc, .stack] s t) ∧
    (s.sp.val = 16 → exec (.op2NNN nnn) s =
      .next { s with halt := .faulted .stackOverflow (BitVec.ofNat 16 (0x2000 + nnn.toNat)) (s.pc - 2) })

/-- 40_step sections 2 and 3: a return right after a call comes back to the instruction after the call, with the depth as
before, and every register, byte of memory and other part as before. -/
def Obligations.ReturnUndoesCall : Prop :=
  ∀ (nnn : Imm12) (s : State), s.sp.val < 16 → ∃ t u, exec (.op2NNN nnn) s = .next t ∧ exec .op00EE t = .next u ∧
    u.pc = s.pc ∧ u.sp = s.sp ∧ (∀ k : Fin 16, k.val < s.sp.val → u.stack[k] = s.stack[k]) ∧
    Frame noReg noAddr [.stack] s u

/-- R132: 1NNN; with the target 0xFFF the next fetch fails. -/
def Obligations.JumpIsAbsolute : Prop :=
  ∀ (nnn : Imm12) (s : State), (encode (.op1NNN nnn)).toNat = 0x1000 + nnn.toNat ∧
    ∃ t, exec (.op1NNN nnn) s = .next t ∧ t.pc.toNat = nnn.toNat ∧
      (nnn = 0xFFF#12 → fetch t = none) ∧ Frame noReg noAddr [.pc] s t

/-- R138: BNNN adds V0, never masked: a sum above 0xFFE makes the next fetch fail; with V0 = 0 it does what 1NNN does. -/
def Obligations.JumpPlusV0IsNotMasked : Prop :=
  ∀ (nnn : Imm12) (s : State), (encode (.opBNNN nnn)).toNat = 0xB000 + nnn.toNat ∧
    (s.getV 0x0 = 0 → exec (.opBNNN nnn) s = exec (.op1NNN nnn) s) ∧
    ∃ t, exec (.opBNNN nnn) s = .next t ∧ t.pc.toNat = nnn.toNat + (s.getV 0x0).toNat ∧ t.pc.toNat ≤ 0x10FE ∧
      (0xFFE < t.pc.toNat → fetch t = none) ∧ Frame noReg noAddr [.pc] s t

/-- R134, R135, R136, R137: the four conditional skips, with their frame; `x` = `y` always skips in 5XY0 and never in
9XY0. -/
def Obligations.ConditionalSkips : Prop :=
  ∀ (x y : Nibble) (nn : Byte) (s : State),
    (encode (.op3XNN x nn)).toNat = 0x3000 + x.toNat * 256 + nn.toNat ∧
    (encode (.op4XNN x nn)).toNat = 0x4000 + x.toNat * 256 + nn.toNat ∧
    (encode (.op5XY0 x y)).toNat = 0x5000 + x.toNat * 256 + y.toNat * 16 ∧
    (encode (.op9XY0 x y)).toNat = 0x9000 + x.toNat * 256 + y.toNat * 16 ∧
    (exec (.op3XNN x nn) s = .next (if s.getV x = nn then { s with pc := s.pc + 2 } else s)) ∧
    (exec (.op4XNN x nn) s = .next (if s.getV x = nn then s else { s with pc := s.pc + 2 })) ∧
    (exec (.op5XY0 x y) s = .next (if s.getV x = s.getV y then { s with pc := s.pc + 2 } else s)) ∧
    (exec (.op9XY0 x y) s = .next (if s.getV x = s.getV y then s else { s with pc := s.pc + 2 })) ∧
    (exec (.op5XY0 x x) s = .next { s with pc := s.pc + 2 }) ∧ (exec (.op9XY0 x x) s = .next s)

/-! ### Registers -/

/-- R150, R151: 6XNN and 7XNN, VF untouched unless it is the destination. -/
def Obligations.ImmediateLoadAndAdd : Prop :=
  ∀ (x : Nibble) (nn : Byte) (s : State),
    (encode (.op6XNN x nn)).toNat = 0x6000 + x.toNat * 256 + nn.toNat ∧
    (encode (.op7XNN x nn)).toNat = 0x7000 + x.toNat * 256 + nn.toNat ∧
    (∃ t, exec (.op6XNN x nn) s = .next t ∧ t.getV x = nn ∧ Frame (fun r => r = x) noAddr [] s t) ∧
    (∃ t, exec (.op7XNN x nn) s = .next t ∧ (t.getV x).toNat = ((s.getV x).toNat + nn.toNat) % 256 ∧
      Frame (fun r => r = x) noAddr [] s t)

/-- R152: 8XY0. -/
def Obligations.RegisterCopy : Prop :=
  ∀ (x y : Nibble) (s : State), (encode (.op8XY0 x y)).toNat = 0x8000 + x.toNat * 256 + y.toNat * 16 ∧
    ∃ t, exec (.op8XY0 x y) s = .next t ∧ t.getV x = s.getV y ∧
    Frame (fun r => r = x) noAddr [] s t

/-- 41_alu section 2 (VF unchanged: decision D8): 8XY1, 8XY2 and 8XY3, bit by bit. -/
def Obligations.BitwiseOpsKeepFlag : Prop :=
  ∀ (x y : Nibble) (s : State),
    (∃ t, exec (.op8XY1 x y) s = .next t ∧
      (∀ k, k < 8 → (t.getV x).getLsbD k = ((s.getV x).getLsbD k || (s.getV y).getLsbD k)) ∧
      Frame (fun r => r = x) noAddr [] s t) ∧
    (∃ t, exec (.op8XY2 x y) s = .next t ∧
      (∀ k, k < 8 → (t.getV x).getLsbD k = ((s.getV x).getLsbD k && (s.getV y).getLsbD k)) ∧
      Frame (fun r => r = x) noAddr [] s t) ∧
    (∃ t, exec (.op8XY3 x y) s = .next t ∧
      (∀ k, k < 8 → (t.getV x).getLsbD k = ((s.getV x).getLsbD k != (s.getV y).getLsbD k)) ∧
      Frame (fun r => r = x) noAddr [] s t)

/-- 41_alu section 2 (the flag is written last: decision D7): 8XY4, 8XY5 and 8XY7 for every pair of registers, `x` = 0xF
included, where VF ends as the flag. -/
def Obligations.AddAndSubtractWithFlag : Prop :=
  ∀ (x y : Nibble) (s : State) (a b : Nat), a = (s.getV x).toNat → b = (s.getV y).toNat →
    (∃ t, exec (.op8XY4 x y) s = .next t ∧ (x ≠ 0xF → (t.getV x).toNat = (a + b) % 256) ∧
      (t.getV 0xF).toNat = (if a + b > 255 then 1 else 0) ∧ Frame (fun r => r = x ∨ r = 0xF) noAddr [] s t) ∧
    (∃ t, exec (.op8XY5 x y) s = .next t ∧ (x ≠ 0xF → (t.getV x).toNat = if a ≥ b then a - b else a + 256 - b) ∧
      (t.getV 0xF).toNat = (if a ≥ b then 1 else 0) ∧ Frame (fun r => r = x ∨ r = 0xF) noAddr [] s t) ∧
    (∃ t, exec (.op8XY7 x y) s = .next t ∧ (x ≠ 0xF → (t.getV x).toNat = if b ≥ a then b - a else b + 256 - a) ∧
      (t.getV 0xF).toNat = (if b ≥ a then 1 else 0) ∧ Frame (fun r => r = x ∨ r = 0xF) noAddr [] s t)

/-- 41_alu section 2 (the flag is written last: decision D7): 8XY6 and 8XYE shift VX itself by one; the bit moved out is the
flag; `y` is ignored. -/
def Obligations.ShiftsByOneWithFlag : Prop :=
  ∀ (x y : Nibble) (s : State) (a : Nat), a = (s.getV x).toNat →
    (∃ t, exec (.op8XY6 x y) s = .next t ∧ (x ≠ 0xF → (t.getV x).toNat = a / 2) ∧ (t.getV 0xF).toNat = a % 2 ∧
      Frame (fun r => r = x ∨ r = 0xF) noAddr [] s t) ∧
    (∃ t, exec (.op8XYE x y) s = .next t ∧ (x ≠ 0xF → (t.getV x).toNat = a * 2 % 256) ∧
      (t.getV 0xF).toNat = a / 128 ∧ Frame (fun r => r = x ∨ r = 0xF) noAddr [] s t)

/-- 41_alu section 4 (the input `rand_in`: decision D16; the port that holds its samples is the model's own: log entry 3):
CXNN, for every draw; one draw is consumed at every execution, also where `nn` is 0, and the bits outside the
mask are 0. -/
def Obligations.RandomByteIsMasked : Prop :=
  ∀ (x : Nibble) (nn : Byte) (s : State), (encode (.opCXNN x nn)).toNat = 0xC000 + x.toNat * 256 + nn.toNat ∧
    ∃ t, exec (.opCXNN x nn) s = .next t ∧
    (∀ k, k < 8 → (t.getV x).getLsbD k = (s.rand8.getLsbD k && nn.getLsbD k)) ∧
    t.randIn = { pending := s.randIn.pending.tail, taken := s.randIn.taken + 1 } ∧
    Frame (fun r => r = x) noAddr [.random] s t

/-! ### Index register and memory -/

/-- R180, R182: ANNN and FX29; the whole value of VX is used. -/
def Obligations.IndexLoads : Prop :=
  (∀ (nnn : Imm12) (s : State), (encode (.opANNN nnn)).toNat = 0xA000 + nnn.toNat ∧
    ∃ t, exec (.opANNN nnn) s = .next t ∧ t.i.toNat = nnn.toNat ∧ Frame noReg noAddr [.index] s t) ∧
  (∀ (x : Nibble) (s : State), (encode (.opFX29 x)).toNat = 0xF029 + x.toNat * 256 ∧
    ∃ t, exec (.opFX29 x) s = .next t ∧ t.i.toNat = (s.getV x).toNat * 5 ∧ Frame noReg noAddr [.index] s t)

/-- 42_index section 1 (wrap modulo 65536: decision D10): FX1E; VF is not written. -/
def Obligations.IndexAddWraps : Prop :=
  ∀ (x : Nibble) (s : State), ∃ t, exec (.opFX1E x) s = .next t ∧
    t.i.toNat = (s.i.toNat + (s.getV x).toNat) % 65536 ∧ Frame noReg noAddr [.index] s t

/-- 42_index section 2 (range: decision D5): FX33 stores the three decimal digits; I is unchanged. -/
def Obligations.BcdStoresDigits : Prop :=
  ∀ (x : Nibble) (s : State) (v : Nat), s.mem.wf = true → v = (s.getV x).toNat → s.i.toNat + 2 ≤ 0xFFF →
    ∃ t, exec (.opFX33 x) s = .next t ∧ (t.mem.read s.i.toNat).toNat = v / 100 ∧
      (t.mem.read (s.i.toNat + 1)).toNat = v / 10 % 10 ∧ (t.mem.read (s.i.toNat + 2)).toNat = v % 10 ∧
      Frame noReg (fun a => s.dataAddr 0 ≤ a ∧ a ≤ s.dataAddr 2) [] s t

/-- 42_index section 2 (range: decision D5; I unchanged: decision D9): FX55. -/
def Obligations.RegisterStore : Prop :=
  ∀ (x : Nibble) (s : State), s.mem.wf = true → s.i.toNat + x.toNat ≤ 0xFFF →
    ∃ t, exec (.opFX55 x) s = .next t ∧
      (∀ k : Nibble, k.toNat ≤ x.toNat → t.mem.read (s.i.toNat + k.toNat) = s.getV k) ∧
      Frame noReg (fun a => s.dataAddr 0 ≤ a ∧ a ≤ s.dataAddr x.toNat) [] s t

/-- 42_index section 2 (range: decision D5; I unchanged: decision D9): FX65. -/
def Obligations.RegisterLoad : Prop :=
  ∀ (x : Nibble) (s : State), s.i.toNat + x.toNat ≤ 0xFFF →
    ∃ t, exec (.opFX65 x) s = .next t ∧
      (∀ k : Nibble, k.toNat ≤ x.toNat → t.getV k = s.mem.read (s.i.toNat + k.toNat)) ∧
      Frame (fun r => r.toNat ≤ x.toNat) noAddr [] s t

/-- 20_memory section 3 and 60_exceptions section 1 (decisions D5, D12): a data access whose highest address is above 0xFFF
faults before any effect; the sum is never wrapped or masked. -/
def Obligations.DataRangeFaults : Prop :=
  ∀ (x y n : Nibble) (s : State),
    (0xFFF < s.i.toNat + 2 → exec (.opFX33 x) s =
      .next { s with halt := .faulted .addressOutOfRange (BitVec.ofNat 16 (s.i.toNat + 2)) (s.pc - 2) }) ∧
    (0xFFF < s.i.toNat + x.toNat → exec (.opFX55 x) s =
      .next { s with halt := .faulted .addressOutOfRange (BitVec.ofNat 16 (s.i.toNat + x.toNat)) (s.pc - 2) }) ∧
    (0xFFF < s.i.toNat + x.toNat → exec (.opFX65 x) s =
      .next { s with halt := .faulted .addressOutOfRange (BitVec.ofNat 16 (s.i.toNat + x.toNat)) (s.pc - 2) }) ∧
    (0 < n.toNat → 0xFFF < s.i.toNat + n.toNat - 1 → exec (.opDXYN x y n) s =
      .next { s with halt := .faulted .addressOutOfRange (BitVec.ofNat 16 (s.i.toNat + n.toNat - 1)) (s.pc - 2) })

/-- 20_memory section 8 (an inference the spec marks as its own): a store by FX55 is seen by the very next fetch, the one
that reads the two stored bytes of registers `k` and `k + 1` included. -/
def Obligations.StoreSeenByNextFetch : Prop :=
  ∀ (x k : Nibble) (s : State), s.mem.wf = true → s.i.toNat + x.toNat ≤ 0xFFF → k.toNat + 1 ≤ x.toNat →
    ∃ t, exec (.opFX55 x) s = .next t ∧
      fetch { t with pc := s.i + BitVec.ofNat 16 k.toNat } = some (wordOfBytes (s.getV k) (s.getV (k + 1)))

/-! ### Display -/

/-- R200: 00E0; VF is not written. -/
def Obligations.ClearTurnsEveryPixelOff : Prop :=
  encode .op00E0 = 0x00E0#16 ∧ ∀ s : State, ∃ t, exec .op00E0 s = .next t ∧ (∀ r c, pixel t.fb r c = false) ∧
    Frame noReg noAddr [.display] s t

/-- 43_display section 2 (range: decision D5; one visit per pixel: an inference the spec marks as its own): after DXYN the
framebuffer is the old one XOR the sprite's wrapped footprint, and VF is 1 exactly where both share an on pixel, else 0. The
coordinates are the old values, also where `x` or `y` is 0xF; with `n` = 0 nothing is drawn and I is not checked. -/
def Obligations.DrawXorsFootprint : Prop :=
  ∀ (x y n : Nibble) (s : State) (bytes : List Byte) (x0 y0 : Nat), n = 0 ∨ s.i.toNat + n.toNat - 1 ≤ 0xFFF →
    bytes = (List.range n.toNat).map (fun k => s.mem.read (s.i.toNat + k)) →
    x0 = (s.getV x).toNat → y0 = (s.getV y).toNat →
    ∃ t, exec (.opDXYN x y n) s = .next t ∧
      (∀ r c, InFootprint bytes x0 y0 r c → pixel t.fb r c = !pixel s.fb r c) ∧
      (∀ r c, ¬ InFootprint bytes x0 y0 r c → pixel t.fb r c = pixel s.fb r c) ∧
      ((∃ r c, InFootprint bytes x0 y0 r c ∧ pixel s.fb r c = true) → t.getV 0xF = 0x01) ∧
      ((∀ r c, InFootprint bytes x0 y0 r c → pixel s.fb r c = false) → t.getV 0xF = 0x00) ∧
      Frame (fun r => r = 0xF) noAddr [.display] s t

/-- R206: collision is exactly an on pixel turned off; each draw overwrites VF; rows of 0 bits change nothing and do not
collide; drawing the same sprite twice at the same coordinates restores every pixel, the second draw's collision being where
the first turned a pixel on, so on a cleared screen exactly where the sprite has a 1 bit. The second draw may name other
registers, as long as they hold the same coordinates (VF is overwritten by the first). -/
def Obligations.DrawTwiceRestores : Prop :=
  ∀ (x y x' y' n : Nibble) (s t : State), s.halt = .none → exec (.opDXYN x y n) s = .next t → t.halt = .none →
    ((∃ r c, pixel s.fb r c = true ∧ pixel t.fb r c = false) → t.getV 0xF = 0x01) ∧
    ((¬ ∃ r c, pixel s.fb r c = true ∧ pixel t.fb r c = false) → t.getV 0xF = 0x00) ∧
    ((∀ k, k < n.toNat → s.mem.read (s.i.toNat + k) = 0) → t.fb = s.fb ∧ t.getV 0xF = 0x00) ∧
    (t.getV x' = s.getV x → t.getV y' = s.getV y → ∃ u, exec (.opDXYN x' y' n) t = .next u ∧ u.fb = s.fb ∧
      ((∃ r c, pixel s.fb r c = false ∧ pixel t.fb r c = true) → u.getV 0xF = 0x01) ∧
      ((¬ ∃ r c, pixel s.fb r c = false ∧ pixel t.fb r c = true) → u.getV 0xF = 0x00) ∧
      ((∀ r c, pixel s.fb r c = false) →
        (u.getV 0xF = 0x01 ↔ ∃ k, k < n.toNat ∧ s.mem.read (s.i.toNat + k) ≠ 0)))

/-! ### Keypad and timers -/

/-- 44_keypad section 1 (range: decision D6): EX9E and EXA1 with a key index of 0 to 15 test the latch. -/
def Obligations.KeySkips : Prop :=
  ∀ (x : Nibble) (s : State), (s.getV x).toNat ≤ 15 →
    (exec (.opEX9E x) s = .next (if s.keys.getLsbD (s.getV x).toNat then { s with pc := s.pc + 2 } else s)) ∧
    (exec (.opEXA1 x) s = .next (if s.keys.getLsbD (s.getV x).toNat then s else { s with pc := s.pc + 2 }))

/-- 44_keypad section 1 and 60_exceptions section 1 (decisions D6, D12): with a key index above 15 both fault, info the
index, nothing else changed. -/
def Obligations.KeyIndexFaults : Prop :=
  ∀ (x : Nibble) (s : State) (i : Instr), 15 < (s.getV x).toNat → i = .opEX9E x ∨ i = .opEXA1 x →
    exec i s = .next { s with halt := .faulted .keyIndexOutOfRange (BitVec.ofNat 16 (s.getV x).toNat) (s.pc - 2) }

/-- 44_keypad section 2 (which opcode does which: general knowledge, as the spec says): FX07, FX15 and FX18; FX18 does not
touch AUDIO. -/
def Obligations.TimerTransfers : Prop :=
  ∀ (x : Nibble) (s : State),
    (∃ t, exec (.opFX07 x) s = .next t ∧ t.getV x = s.dt ∧ Frame (fun r => r = x) noAddr [] s t) ∧
    (∃ t, exec (.opFX15 x) s = .next t ∧ t.dt = s.getV x ∧ Frame noReg noAddr [.delay] s t) ∧
    (∃ t, exec (.opFX18 x) s = .next t ∧ t.st = s.getV x ∧ Frame noReg noAddr [.sound] s t)

/-- R226: FX0A only enters the wait: it does not look at the key latch, and writes no register. PC stays throughout the
wait: the invocation after it is a poll that leaves PC, and the wait goes on while the latch has no key. -/
def Obligations.KeyWaitEntered : Prop :=
  ∀ (x : Nibble) (s : State), (encode (.opFX0A x)).toNat = 0xF00A + x.toNat * 256 ∧
    ∃ t, exec (.opFX0A x) s = .next t ∧ t.mode = .awaitingKey x ∧ Frame noReg noAddr [.mode] s t ∧
    ∀ k : Word, exec (.opFX0A x) { s with keys := k } = .next { t with keys := k } ∧
      ∃ u, invoke { t with keys := k } = .next u ∧ u.pc = s.pc ∧ (k = 0 → u = { t with keys := k }) ∧
        (k ≠ 0 → u.mode = .running)

/-! ### Reset, ROM load, outputs -/

/-- R283: the ROM load. An image of at most 3584 bytes is copied verbatim to 0x200, nothing else changes; a longer one
raises RomTooLarge and no byte is written. -/
def Obligations.RomLoadCopiesVerbatim : Prop :=
  ∀ (rom : List Byte) (s : State), s.mem.wf = true →
    (rom.length ≤ 0xE00 → s.loadRom rom = { s with mem := (s.loadRom rom).mem } ∧
      (∀ k b, rom[k]? = some b → (s.loadRom rom).mem.read (0x200 + k) = b) ∧
      (∀ a, a < 0x200 ∨ 0x200 + rom.length ≤ a → (s.loadRom rom).mem.read a = s.mem.read a)) ∧
    (0xE00 < rom.length → ∃ info fpc, s.loadRom rom = { s with halt := .faulted .romTooLarge info fpc } ∧
      (rom.length < 65536 → info.toNat = rom.length))

/-- 60_exceptions section 1 (decision D12): a too large image at boot leaves code 1, the length modulo 65536 and 0x200, and
no step is ever taken. -/
def Obligations.TooLargeRomNeverRuns : Prop :=
  ∀ rom : List Byte, 0xE00 < rom.length →
    (boot rom).halt = .faulted .romTooLarge (BitVec.ofNat 16 rom.length) 0x0200#16 ∧ (boot rom).pc = 0x0200#16 ∧
    (boot rom).mem = State.reset.mem ∧ ∀ t, step (boot rom) ≠ .next t

/-- 10_state section 9, 70_reset section 1 (decisions D2, D3, D4, D15, D22): what reset leaves, memory read byte by byte; the
reset input leaves the same from any state. -/
def Obligations.ResetValues : Prop :=
  (∀ s : State, ∀ t, t = s.hostReset →
    t.pc = 0x0200#16 ∧ (∀ r, t.getV r = 0) ∧ t.i = 0 ∧ t.sp.val = 0 ∧ (∀ k : Fin 16, t.stack[k] = 0) ∧
    t.dt = 0 ∧ t.st = 0 ∧ (∀ r c, pixel t.fb r c = false) ∧ t.mode = .running ∧ t.keys = 0 ∧ t.audio = false ∧
    t.halt = .none ∧ t.seq = .frameStart ∧ t.mem = State.reset.mem) ∧
  State.reset.hostReset = State.reset ∧
  (∀ a, 0x050 ≤ a → State.reset.mem.read a = 0x00) ∧
  (∀ g, g < 16 → ∀ k, k < 5 → (State.reset.mem.read (5 * g + k)).toNat % 16 = 0) ∧
  (State.reset.mem.read 0x000 = 0xF0 ∧ State.reset.mem.read 0x001 = 0x90 ∧ State.reset.mem.read 0x005 = 0x20 ∧
    State.reset.mem.read 0x04B = 0xF0 ∧ State.reset.mem.read 0x04F = 0x80)

/-- 60_exceptions sections 1 and 5 (decisions D12, D13): the outputs are HALT's fields and AUDIO, with codes 1 to 6. -/
def Obligations.OutputsFollowState : Prop :=
  ∀ s : State,
    (s.audioOn = s.audio) ∧ (s.halted = true ↔ s.halt ≠ .none) ∧
    (s.halt = .none ∨ s.halt = .stopped → s.faultCode = 0) ∧
    (∀ kind info fpc, s.halt = .faulted kind info fpc →
      s.faultInfo = some info ∧ s.faultPcOut = some fpc ∧
      (kind = .romTooLarge → s.faultCode = 1) ∧ (kind = .stackOverflow → s.faultCode = 2) ∧
      (kind = .stackUnderflow → s.faultCode = 3) ∧ (kind = .unknownOpcode → s.faultCode = 4) ∧
      (kind = .addressOutOfRange → s.faultCode = 5) ∧ (kind = .keyIndexOutOfRange → s.faultCode = 6))
end

