-- ==== Sys2Proof/Laws/Memory.lean ====
section
/-! SUPPORT. The laws of memory: a read after a write, and that a write keeps the canonical form. -/

namespace Sys2Proof.Machine

theorem inMemory_iff (a : Nat) : inMemory a = true ↔ a < 0x1000 := decide_eq_true_iff

theorem wfFrom_cons {lo a : Nat} {v : Byte} {m : Memory} :
    Memory.wfFrom lo ((a, v) :: m) = true ↔
      lo ≤ a ∧ inMemory a = true ∧ v ≠ resetByte a ∧ Memory.wfFrom (a + 1) m = true := by
  simp [Memory.wfFrom, Bool.and_eq_true, and_assoc]

/-- A canonical list from a higher bound is canonical from a lower one. -/
theorem wfFrom_mono {lo lo' : Nat} (h : lo' ≤ lo) : ∀ {m : Memory}, m.wfFrom lo = true → m.wfFrom lo' = true
  | [], _ => rfl
  | (a, v) :: m, hm => by
    rw [wfFrom_cons] at hm ⊢
    exact ⟨by omega, hm.2⟩

/-- Below its bound a canonical list holds nothing: the byte is the reset contents. -/
theorem read_below {lo : Nat} : ∀ {m : Memory} {a : Nat}, m.wfFrom lo = true → a < lo → m.read a = resetByte a
  | [], _, _, _ => rfl
  | (b, v) :: m, a, hm, ha => by
    rw [wfFrom_cons] at hm
    have hne : a ≠ b := by omega
    simpa [Memory.read, hne] using read_below (m := m) hm.2.2.2 (by omega)

/-- A read of another address is not affected. -/
theorem read_put_of_ne (a : Nat) (v : Byte) : ∀ (m : Memory) (c : Nat), c ≠ a → (m.put a v).read c = m.read c
  | [], c, h => by
    unfold Memory.put
    split <;> simp [Memory.read, h]
  | (b, w) :: m, c, h => by
    have ih := read_put_of_ne a v m c h
    unfold Memory.put
    split
    · split <;> simp [Memory.read, h]
    · split
      · rename_i hab
        subst hab
        split <;> simp [Memory.read, h]
      · simp [Memory.read, ih]

/-- A read of the address written gives the value written. -/
theorem read_put_same (a : Nat) (v : Byte) :
    ∀ (m : Memory) (lo : Nat), m.wfFrom lo = true → (m.put a v).read a = v
  | [], _, _ => by
    unfold Memory.put
    split <;> simp_all [Memory.read]
  | (b, w) :: m, lo, hm => by
    rw [wfFrom_cons] at hm
    have ih := read_put_same a v m (b + 1) hm.2.2.2
    unfold Memory.put
    split
    · rename_i hab
      split
      · rename_i hv
        have hne : a ≠ b := by omega
        simp [Memory.read, hne, hv, read_below hm.2.2.2 (show a < b + 1 by omega)]
      · simp [Memory.read]
    · split
      · rename_i hab
        subst hab
        split
        · rename_i hv
          rw [hv]
          exact read_below hm.2.2.2 (by omega)
        · simp [Memory.read]
      · rename_i hab
        simp [Memory.read, hab, ih]

/-- A write keeps the canonical form. -/
theorem put_wfFrom (a : Nat) (v : Byte) (ha : inMemory a = true) :
    ∀ (m : Memory) (lo : Nat), m.wfFrom lo = true → lo ≤ a → (m.put a v).wfFrom lo = true
  | [], lo, _, hlo => by
    unfold Memory.put
    split
    · rfl
    · rename_i hv
      exact wfFrom_cons.2 ⟨hlo, ha, hv, rfl⟩
  | (b, w) :: m, lo, hm, hlo => by
    have hm' := wfFrom_cons.1 hm
    unfold Memory.put
    split
    · split
      · exact hm
      · rename_i hab hv
        exact wfFrom_cons.2 ⟨hlo, ha, hv, wfFrom_cons.2 ⟨by omega, hm'.2⟩⟩
    · split
      · rename_i hab
        subst hab
        split
        · exact wfFrom_mono (by omega) hm'.2.2.2
        · rename_i hv
          exact wfFrom_cons.2 ⟨hlo, ha, hv, hm'.2.2.2⟩
      · exact wfFrom_cons.2 ⟨hm'.1, hm'.2.1, hm'.2.2.1, put_wfFrom a v ha m (b + 1) hm'.2.2.2 (by omega)⟩

theorem read_write_of_ne (m : Memory) (a c : Nat) (v : Byte) (h : c ≠ a) : (m.write a v).read c = m.read c := by
  unfold Memory.write
  split
  · exact read_put_of_ne a v m c h
  · rfl

theorem read_write_same (m : Memory) (a : Nat) (v : Byte) (hm : m.wf = true) (ha : a < 0x1000) :
    (m.write a v).read a = v := by
  have : inMemory a = true := (inMemory_iff a).2 ha
  simpa [Memory.write, this] using read_put_same a v m 0 hm

theorem read_write (m : Memory) (a c : Nat) (v : Byte) (hm : m.wf = true) (ha : a < 0x1000) :
    (m.write a v).read c = if c = a then v else m.read c := by
  split
  · rename_i h
    rw [h, read_write_same m a v hm ha]
  · rename_i h
    exact read_write_of_ne m a c v h

/-- Every write keeps the canonical form. -/
theorem write_wf (m : Memory) (a : Nat) (v : Byte) (hm : m.wf = true) : (m.write a v).wf = true := by
  unfold Memory.write
  split
  · rename_i ha
    exact put_wfFrom a v ha m 0 hm (by omega)
  · exact hm

theorem reset_mem_wf : State.reset.mem.wf = true := rfl

end Sys2Proof.Machine
end

