-- ==== Sys2Proof/Laws/Boot.lean ====
section
/-! SUPPORT. The laws of the ROM load's copy. -/

namespace Sys2Proof.Machine

theorem copyBytes_wf : ∀ (rom : List Byte) (m : Memory) (base : Nat),
    m.wf = true → (copyBytes m base rom).wf = true
  | [], _, _, hm => hm
  | b :: rest, m, base, hm => copyBytes_wf rest (m.write base b) (base + 1) (write_wf m base b hm)

/-- The bytes outside the image are as before. -/
theorem read_copyBytes_outside (a : Nat) : ∀ (rom : List Byte) (m : Memory) (base : Nat),
    ¬ (base ≤ a ∧ a < base + rom.length) → (copyBytes m base rom).read a = m.read a
  | [], _, _, _ => rfl
  | b :: rest, m, base, h => by
    simp only [List.length_cons] at h
    rw [copyBytes, read_copyBytes_outside a rest (m.write base b) (base + 1) (by omega),
      read_write_of_ne _ _ _ _ (by omega)]

/-- Byte `k` of the image is at `base + k`. -/
theorem read_copyBytes_inside (k : Nat) : ∀ (rom : List Byte) (m : Memory) (base : Nat), m.wf = true →
    base + rom.length ≤ 0x1000 → ∀ b, rom[k]? = some b → (copyBytes m base rom).read (base + k) = b
  | [], _, _, _, _, _, h => by simp at h
  | c :: rest, m, base, hm, hl, b, h => by
    simp only [List.length_cons] at hl
    have hw := write_wf m base c hm
    cases k with
    | zero =>
      rw [copyBytes, read_copyBytes_outside _ _ _ _ (by omega), Nat.add_zero,
        read_write_same m base c hm (by omega)]
      simpa using h
    | succ j =>
      have hj := read_copyBytes_inside j rest (m.write base c) (base + 1) hw (by omega) b (by simpa using h)
      rw [copyBytes, show base + (j + 1) = base + 1 + j by omega]
      exact hj

end Sys2Proof.Machine
end

