-- ==== Sys2Proof/Laws/State.lean ====
section
/-! SUPPORT. One lemma per field per named update of State, and reading a register after writing one. -/

namespace Sys2Proof.Machine

/-! ### `setV` -/

@[simp] theorem setV_mem (s : State) (x : Nibble) (b : Byte) : (s.setV x b).mem = s.mem := rfl
@[simp] theorem setV_v (s : State) (x : Nibble) (b : Byte) : (s.setV x b).v = s.v.set x.toNat b x.isLt := rfl
@[simp] theorem setV_i (s : State) (x : Nibble) (b : Byte) : (s.setV x b).i = s.i := rfl
@[simp] theorem setV_pc (s : State) (x : Nibble) (b : Byte) : (s.setV x b).pc = s.pc := rfl
@[simp] theorem setV_stack (s : State) (x : Nibble) (b : Byte) : (s.setV x b).stack = s.stack := rfl
@[simp] theorem setV_sp (s : State) (x : Nibble) (b : Byte) : (s.setV x b).sp = s.sp := rfl
@[simp] theorem setV_dt (s : State) (x : Nibble) (b : Byte) : (s.setV x b).dt = s.dt := rfl
@[simp] theorem setV_st (s : State) (x : Nibble) (b : Byte) : (s.setV x b).st = s.st := rfl
@[simp] theorem setV_fb (s : State) (x : Nibble) (b : Byte) : (s.setV x b).fb = s.fb := rfl
@[simp] theorem setV_mode (s : State) (x : Nibble) (b : Byte) : (s.setV x b).mode = s.mode := rfl
@[simp] theorem setV_keys (s : State) (x : Nibble) (b : Byte) : (s.setV x b).keys = s.keys := rfl
@[simp] theorem setV_audio (s : State) (x : Nibble) (b : Byte) : (s.setV x b).audio = s.audio := rfl
@[simp] theorem setV_halt (s : State) (x : Nibble) (b : Byte) : (s.setV x b).halt = s.halt := rfl
@[simp] theorem setV_seq (s : State) (x : Nibble) (b : Byte) : (s.setV x b).seq = s.seq := rfl
@[simp] theorem setV_runEn (s : State) (x : Nibble) (b : Byte) : (s.setV x b).runEn = s.runEn := rfl
@[simp] theorem setV_keysIn (s : State) (x : Nibble) (b : Byte) : (s.setV x b).keysIn = s.keysIn := rfl
@[simp] theorem setV_randIn (s : State) (x : Nibble) (b : Byte) : (s.setV x b).randIn = s.randIn := rfl

/-! ### `setPc` -/

@[simp] theorem setPc_mem (s : State) (a : Word) : (s.setPc a).mem = s.mem := rfl
@[simp] theorem setPc_v (s : State) (a : Word) : (s.setPc a).v = s.v := rfl
@[simp] theorem setPc_i (s : State) (a : Word) : (s.setPc a).i = s.i := rfl
@[simp] theorem setPc_pc (s : State) (a : Word) : (s.setPc a).pc = a := rfl
@[simp] theorem setPc_stack (s : State) (a : Word) : (s.setPc a).stack = s.stack := rfl
@[simp] theorem setPc_sp (s : State) (a : Word) : (s.setPc a).sp = s.sp := rfl
@[simp] theorem setPc_dt (s : State) (a : Word) : (s.setPc a).dt = s.dt := rfl
@[simp] theorem setPc_st (s : State) (a : Word) : (s.setPc a).st = s.st := rfl
@[simp] theorem setPc_fb (s : State) (a : Word) : (s.setPc a).fb = s.fb := rfl
@[simp] theorem setPc_mode (s : State) (a : Word) : (s.setPc a).mode = s.mode := rfl
@[simp] theorem setPc_keys (s : State) (a : Word) : (s.setPc a).keys = s.keys := rfl
@[simp] theorem setPc_audio (s : State) (a : Word) : (s.setPc a).audio = s.audio := rfl
@[simp] theorem setPc_halt (s : State) (a : Word) : (s.setPc a).halt = s.halt := rfl
@[simp] theorem setPc_seq (s : State) (a : Word) : (s.setPc a).seq = s.seq := rfl
@[simp] theorem setPc_runEn (s : State) (a : Word) : (s.setPc a).runEn = s.runEn := rfl
@[simp] theorem setPc_keysIn (s : State) (a : Word) : (s.setPc a).keysIn = s.keysIn := rfl
@[simp] theorem setPc_randIn (s : State) (a : Word) : (s.setPc a).randIn = s.randIn := rfl
@[simp] theorem setPc_getV (s : State) (a : Word) (r : Nibble) : (s.setPc a).getV r = s.getV r := rfl

/-! ### `setI` -/

@[simp] theorem setI_mem (s : State) (a : Word) : (s.setI a).mem = s.mem := rfl
@[simp] theorem setI_v (s : State) (a : Word) : (s.setI a).v = s.v := rfl
@[simp] theorem setI_i (s : State) (a : Word) : (s.setI a).i = a := rfl
@[simp] theorem setI_pc (s : State) (a : Word) : (s.setI a).pc = s.pc := rfl
@[simp] theorem setI_stack (s : State) (a : Word) : (s.setI a).stack = s.stack := rfl
@[simp] theorem setI_sp (s : State) (a : Word) : (s.setI a).sp = s.sp := rfl
@[simp] theorem setI_dt (s : State) (a : Word) : (s.setI a).dt = s.dt := rfl
@[simp] theorem setI_st (s : State) (a : Word) : (s.setI a).st = s.st := rfl
@[simp] theorem setI_fb (s : State) (a : Word) : (s.setI a).fb = s.fb := rfl
@[simp] theorem setI_mode (s : State) (a : Word) : (s.setI a).mode = s.mode := rfl
@[simp] theorem setI_keys (s : State) (a : Word) : (s.setI a).keys = s.keys := rfl
@[simp] theorem setI_audio (s : State) (a : Word) : (s.setI a).audio = s.audio := rfl
@[simp] theorem setI_halt (s : State) (a : Word) : (s.setI a).halt = s.halt := rfl
@[simp] theorem setI_seq (s : State) (a : Word) : (s.setI a).seq = s.seq := rfl
@[simp] theorem setI_runEn (s : State) (a : Word) : (s.setI a).runEn = s.runEn := rfl
@[simp] theorem setI_keysIn (s : State) (a : Word) : (s.setI a).keysIn = s.keysIn := rfl
@[simp] theorem setI_randIn (s : State) (a : Word) : (s.setI a).randIn = s.randIn := rfl
@[simp] theorem setI_getV (s : State) (a : Word) (r : Nibble) : (s.setI a).getV r = s.getV r := rfl

/-! ### `setDt` -/

@[simp] theorem setDt_mem (s : State) (b : Byte) : (s.setDt b).mem = s.mem := rfl
@[simp] theorem setDt_v (s : State) (b : Byte) : (s.setDt b).v = s.v := rfl
@[simp] theorem setDt_i (s : State) (b : Byte) : (s.setDt b).i = s.i := rfl
@[simp] theorem setDt_pc (s : State) (b : Byte) : (s.setDt b).pc = s.pc := rfl
@[simp] theorem setDt_stack (s : State) (b : Byte) : (s.setDt b).stack = s.stack := rfl
@[simp] theorem setDt_sp (s : State) (b : Byte) : (s.setDt b).sp = s.sp := rfl
@[simp] theorem setDt_dt (s : State) (b : Byte) : (s.setDt b).dt = b := rfl
@[simp] theorem setDt_st (s : State) (b : Byte) : (s.setDt b).st = s.st := rfl
@[simp] theorem setDt_fb (s : State) (b : Byte) : (s.setDt b).fb = s.fb := rfl
@[simp] theorem setDt_mode (s : State) (b : Byte) : (s.setDt b).mode = s.mode := rfl
@[simp] theorem setDt_keys (s : State) (b : Byte) : (s.setDt b).keys = s.keys := rfl
@[simp] theorem setDt_audio (s : State) (b : Byte) : (s.setDt b).audio = s.audio := rfl
@[simp] theorem setDt_halt (s : State) (b : Byte) : (s.setDt b).halt = s.halt := rfl
@[simp] theorem setDt_seq (s : State) (b : Byte) : (s.setDt b).seq = s.seq := rfl
@[simp] theorem setDt_runEn (s : State) (b : Byte) : (s.setDt b).runEn = s.runEn := rfl
@[simp] theorem setDt_keysIn (s : State) (b : Byte) : (s.setDt b).keysIn = s.keysIn := rfl
@[simp] theorem setDt_randIn (s : State) (b : Byte) : (s.setDt b).randIn = s.randIn := rfl
@[simp] theorem setDt_getV (s : State) (b : Byte) (r : Nibble) : (s.setDt b).getV r = s.getV r := rfl

/-! ### `setSt` -/

@[simp] theorem setSt_mem (s : State) (b : Byte) : (s.setSt b).mem = s.mem := rfl
@[simp] theorem setSt_v (s : State) (b : Byte) : (s.setSt b).v = s.v := rfl
@[simp] theorem setSt_i (s : State) (b : Byte) : (s.setSt b).i = s.i := rfl
@[simp] theorem setSt_pc (s : State) (b : Byte) : (s.setSt b).pc = s.pc := rfl
@[simp] theorem setSt_stack (s : State) (b : Byte) : (s.setSt b).stack = s.stack := rfl
@[simp] theorem setSt_sp (s : State) (b : Byte) : (s.setSt b).sp = s.sp := rfl
@[simp] theorem setSt_dt (s : State) (b : Byte) : (s.setSt b).dt = s.dt := rfl
@[simp] theorem setSt_st (s : State) (b : Byte) : (s.setSt b).st = b := rfl
@[simp] theorem setSt_fb (s : State) (b : Byte) : (s.setSt b).fb = s.fb := rfl
@[simp] theorem setSt_mode (s : State) (b : Byte) : (s.setSt b).mode = s.mode := rfl
@[simp] theorem setSt_keys (s : State) (b : Byte) : (s.setSt b).keys = s.keys := rfl
@[simp] theorem setSt_audio (s : State) (b : Byte) : (s.setSt b).audio = s.audio := rfl
@[simp] theorem setSt_halt (s : State) (b : Byte) : (s.setSt b).halt = s.halt := rfl
@[simp] theorem setSt_seq (s : State) (b : Byte) : (s.setSt b).seq = s.seq := rfl
@[simp] theorem setSt_runEn (s : State) (b : Byte) : (s.setSt b).runEn = s.runEn := rfl
@[simp] theorem setSt_keysIn (s : State) (b : Byte) : (s.setSt b).keysIn = s.keysIn := rfl
@[simp] theorem setSt_randIn (s : State) (b : Byte) : (s.setSt b).randIn = s.randIn := rfl
@[simp] theorem setSt_getV (s : State) (b : Byte) (r : Nibble) : (s.setSt b).getV r = s.getV r := rfl

/-! ### `setFb` -/

@[simp] theorem setFb_mem (s : State) (f : FrameBuffer) : (s.setFb f).mem = s.mem := rfl
@[simp] theorem setFb_v (s : State) (f : FrameBuffer) : (s.setFb f).v = s.v := rfl
@[simp] theorem setFb_i (s : State) (f : FrameBuffer) : (s.setFb f).i = s.i := rfl
@[simp] theorem setFb_pc (s : State) (f : FrameBuffer) : (s.setFb f).pc = s.pc := rfl
@[simp] theorem setFb_stack (s : State) (f : FrameBuffer) : (s.setFb f).stack = s.stack := rfl
@[simp] theorem setFb_sp (s : State) (f : FrameBuffer) : (s.setFb f).sp = s.sp := rfl
@[simp] theorem setFb_dt (s : State) (f : FrameBuffer) : (s.setFb f).dt = s.dt := rfl
@[simp] theorem setFb_st (s : State) (f : FrameBuffer) : (s.setFb f).st = s.st := rfl
@[simp] theorem setFb_fb (s : State) (f : FrameBuffer) : (s.setFb f).fb = f := rfl
@[simp] theorem setFb_mode (s : State) (f : FrameBuffer) : (s.setFb f).mode = s.mode := rfl
@[simp] theorem setFb_keys (s : State) (f : FrameBuffer) : (s.setFb f).keys = s.keys := rfl
@[simp] theorem setFb_audio (s : State) (f : FrameBuffer) : (s.setFb f).audio = s.audio := rfl
@[simp] theorem setFb_halt (s : State) (f : FrameBuffer) : (s.setFb f).halt = s.halt := rfl
@[simp] theorem setFb_seq (s : State) (f : FrameBuffer) : (s.setFb f).seq = s.seq := rfl
@[simp] theorem setFb_runEn (s : State) (f : FrameBuffer) : (s.setFb f).runEn = s.runEn := rfl
@[simp] theorem setFb_keysIn (s : State) (f : FrameBuffer) : (s.setFb f).keysIn = s.keysIn := rfl
@[simp] theorem setFb_randIn (s : State) (f : FrameBuffer) : (s.setFb f).randIn = s.randIn := rfl
@[simp] theorem setFb_getV (s : State) (f : FrameBuffer) (r : Nibble) : (s.setFb f).getV r = s.getV r := rfl

/-! ### `setMem` -/

@[simp] theorem setMem_mem (s : State) (m : Memory) : (s.setMem m).mem = m := rfl
@[simp] theorem setMem_v (s : State) (m : Memory) : (s.setMem m).v = s.v := rfl
@[simp] theorem setMem_i (s : State) (m : Memory) : (s.setMem m).i = s.i := rfl
@[simp] theorem setMem_pc (s : State) (m : Memory) : (s.setMem m).pc = s.pc := rfl
@[simp] theorem setMem_stack (s : State) (m : Memory) : (s.setMem m).stack = s.stack := rfl
@[simp] theorem setMem_sp (s : State) (m : Memory) : (s.setMem m).sp = s.sp := rfl
@[simp] theorem setMem_dt (s : State) (m : Memory) : (s.setMem m).dt = s.dt := rfl
@[simp] theorem setMem_st (s : State) (m : Memory) : (s.setMem m).st = s.st := rfl
@[simp] theorem setMem_fb (s : State) (m : Memory) : (s.setMem m).fb = s.fb := rfl
@[simp] theorem setMem_mode (s : State) (m : Memory) : (s.setMem m).mode = s.mode := rfl
@[simp] theorem setMem_keys (s : State) (m : Memory) : (s.setMem m).keys = s.keys := rfl
@[simp] theorem setMem_audio (s : State) (m : Memory) : (s.setMem m).audio = s.audio := rfl
@[simp] theorem setMem_halt (s : State) (m : Memory) : (s.setMem m).halt = s.halt := rfl
@[simp] theorem setMem_seq (s : State) (m : Memory) : (s.setMem m).seq = s.seq := rfl
@[simp] theorem setMem_runEn (s : State) (m : Memory) : (s.setMem m).runEn = s.runEn := rfl
@[simp] theorem setMem_keysIn (s : State) (m : Memory) : (s.setMem m).keysIn = s.keysIn := rfl
@[simp] theorem setMem_randIn (s : State) (m : Memory) : (s.setMem m).randIn = s.randIn := rfl
@[simp] theorem setMem_getV (s : State) (m : Memory) (r : Nibble) : (s.setMem m).getV r = s.getV r := rfl

/-! ### `setMode` -/

@[simp] theorem setMode_mem (s : State) (m : Mode) : (s.setMode m).mem = s.mem := rfl
@[simp] theorem setMode_v (s : State) (m : Mode) : (s.setMode m).v = s.v := rfl
@[simp] theorem setMode_i (s : State) (m : Mode) : (s.setMode m).i = s.i := rfl
@[simp] theorem setMode_pc (s : State) (m : Mode) : (s.setMode m).pc = s.pc := rfl
@[simp] theorem setMode_stack (s : State) (m : Mode) : (s.setMode m).stack = s.stack := rfl
@[simp] theorem setMode_sp (s : State) (m : Mode) : (s.setMode m).sp = s.sp := rfl
@[simp] theorem setMode_dt (s : State) (m : Mode) : (s.setMode m).dt = s.dt := rfl
@[simp] theorem setMode_st (s : State) (m : Mode) : (s.setMode m).st = s.st := rfl
@[simp] theorem setMode_fb (s : State) (m : Mode) : (s.setMode m).fb = s.fb := rfl
@[simp] theorem setMode_mode (s : State) (m : Mode) : (s.setMode m).mode = m := rfl
@[simp] theorem setMode_keys (s : State) (m : Mode) : (s.setMode m).keys = s.keys := rfl
@[simp] theorem setMode_audio (s : State) (m : Mode) : (s.setMode m).audio = s.audio := rfl
@[simp] theorem setMode_halt (s : State) (m : Mode) : (s.setMode m).halt = s.halt := rfl
@[simp] theorem setMode_seq (s : State) (m : Mode) : (s.setMode m).seq = s.seq := rfl
@[simp] theorem setMode_runEn (s : State) (m : Mode) : (s.setMode m).runEn = s.runEn := rfl
@[simp] theorem setMode_keysIn (s : State) (m : Mode) : (s.setMode m).keysIn = s.keysIn := rfl
@[simp] theorem setMode_randIn (s : State) (m : Mode) : (s.setMode m).randIn = s.randIn := rfl
@[simp] theorem setMode_getV (s : State) (m : Mode) (r : Nibble) : (s.setMode m).getV r = s.getV r := rfl

/-! ### `setHalt` -/

@[simp] theorem setHalt_mem (s : State) (h : Halt) : (s.setHalt h).mem = s.mem := rfl
@[simp] theorem setHalt_v (s : State) (h : Halt) : (s.setHalt h).v = s.v := rfl
@[simp] theorem setHalt_i (s : State) (h : Halt) : (s.setHalt h).i = s.i := rfl
@[simp] theorem setHalt_pc (s : State) (h : Halt) : (s.setHalt h).pc = s.pc := rfl
@[simp] theorem setHalt_stack (s : State) (h : Halt) : (s.setHalt h).stack = s.stack := rfl
@[simp] theorem setHalt_sp (s : State) (h : Halt) : (s.setHalt h).sp = s.sp := rfl
@[simp] theorem setHalt_dt (s : State) (h : Halt) : (s.setHalt h).dt = s.dt := rfl
@[simp] theorem setHalt_st (s : State) (h : Halt) : (s.setHalt h).st = s.st := rfl
@[simp] theorem setHalt_fb (s : State) (h : Halt) : (s.setHalt h).fb = s.fb := rfl
@[simp] theorem setHalt_mode (s : State) (h : Halt) : (s.setHalt h).mode = s.mode := rfl
@[simp] theorem setHalt_keys (s : State) (h : Halt) : (s.setHalt h).keys = s.keys := rfl
@[simp] theorem setHalt_audio (s : State) (h : Halt) : (s.setHalt h).audio = s.audio := rfl
@[simp] theorem setHalt_halt (s : State) (h : Halt) : (s.setHalt h).halt = h := rfl
@[simp] theorem setHalt_seq (s : State) (h : Halt) : (s.setHalt h).seq = s.seq := rfl
@[simp] theorem setHalt_runEn (s : State) (h : Halt) : (s.setHalt h).runEn = s.runEn := rfl
@[simp] theorem setHalt_keysIn (s : State) (h : Halt) : (s.setHalt h).keysIn = s.keysIn := rfl
@[simp] theorem setHalt_randIn (s : State) (h : Halt) : (s.setHalt h).randIn = s.randIn := rfl
@[simp] theorem setHalt_getV (s : State) (h : Halt) (r : Nibble) : (s.setHalt h).getV r = s.getV r := rfl

/-! ### `setSeq` -/

@[simp] theorem setSeq_mem (s : State) (q : Seq) : (s.setSeq q).mem = s.mem := rfl
@[simp] theorem setSeq_v (s : State) (q : Seq) : (s.setSeq q).v = s.v := rfl
@[simp] theorem setSeq_i (s : State) (q : Seq) : (s.setSeq q).i = s.i := rfl
@[simp] theorem setSeq_pc (s : State) (q : Seq) : (s.setSeq q).pc = s.pc := rfl
@[simp] theorem setSeq_stack (s : State) (q : Seq) : (s.setSeq q).stack = s.stack := rfl
@[simp] theorem setSeq_sp (s : State) (q : Seq) : (s.setSeq q).sp = s.sp := rfl
@[simp] theorem setSeq_dt (s : State) (q : Seq) : (s.setSeq q).dt = s.dt := rfl
@[simp] theorem setSeq_st (s : State) (q : Seq) : (s.setSeq q).st = s.st := rfl
@[simp] theorem setSeq_fb (s : State) (q : Seq) : (s.setSeq q).fb = s.fb := rfl
@[simp] theorem setSeq_mode (s : State) (q : Seq) : (s.setSeq q).mode = s.mode := rfl
@[simp] theorem setSeq_keys (s : State) (q : Seq) : (s.setSeq q).keys = s.keys := rfl
@[simp] theorem setSeq_audio (s : State) (q : Seq) : (s.setSeq q).audio = s.audio := rfl
@[simp] theorem setSeq_halt (s : State) (q : Seq) : (s.setSeq q).halt = s.halt := rfl
@[simp] theorem setSeq_seq (s : State) (q : Seq) : (s.setSeq q).seq = q := rfl
@[simp] theorem setSeq_runEn (s : State) (q : Seq) : (s.setSeq q).runEn = s.runEn := rfl
@[simp] theorem setSeq_keysIn (s : State) (q : Seq) : (s.setSeq q).keysIn = s.keysIn := rfl
@[simp] theorem setSeq_randIn (s : State) (q : Seq) : (s.setSeq q).randIn = s.randIn := rfl
@[simp] theorem setSeq_getV (s : State) (q : Seq) (r : Nibble) : (s.setSeq q).getV r = s.getV r := rfl

/-! ### `advancePc` -/

@[simp] theorem advancePc_mem (s : State) : (s.advancePc).mem = s.mem := rfl
@[simp] theorem advancePc_v (s : State) : (s.advancePc).v = s.v := rfl
@[simp] theorem advancePc_i (s : State) : (s.advancePc).i = s.i := rfl
@[simp] theorem advancePc_pc (s : State) : (s.advancePc).pc = s.pc + 2 := rfl
@[simp] theorem advancePc_stack (s : State) : (s.advancePc).stack = s.stack := rfl
@[simp] theorem advancePc_sp (s : State) : (s.advancePc).sp = s.sp := rfl
@[simp] theorem advancePc_dt (s : State) : (s.advancePc).dt = s.dt := rfl
@[simp] theorem advancePc_st (s : State) : (s.advancePc).st = s.st := rfl
@[simp] theorem advancePc_fb (s : State) : (s.advancePc).fb = s.fb := rfl
@[simp] theorem advancePc_mode (s : State) : (s.advancePc).mode = s.mode := rfl
@[simp] theorem advancePc_keys (s : State) : (s.advancePc).keys = s.keys := rfl
@[simp] theorem advancePc_audio (s : State) : (s.advancePc).audio = s.audio := rfl
@[simp] theorem advancePc_halt (s : State) : (s.advancePc).halt = s.halt := rfl
@[simp] theorem advancePc_seq (s : State) : (s.advancePc).seq = s.seq := rfl
@[simp] theorem advancePc_runEn (s : State) : (s.advancePc).runEn = s.runEn := rfl
@[simp] theorem advancePc_keysIn (s : State) : (s.advancePc).keysIn = s.keysIn := rfl
@[simp] theorem advancePc_randIn (s : State) : (s.advancePc).randIn = s.randIn := rfl
@[simp] theorem advancePc_getV (s : State) (r : Nibble) : (s.advancePc).getV r = s.getV r := rfl

/-! ### `setFlag` -/

@[simp] theorem setFlag_mem (s : State) (f : Bool) : (s.setFlag f).mem = s.mem := rfl
@[simp] theorem setFlag_i (s : State) (f : Bool) : (s.setFlag f).i = s.i := rfl
@[simp] theorem setFlag_pc (s : State) (f : Bool) : (s.setFlag f).pc = s.pc := rfl
@[simp] theorem setFlag_stack (s : State) (f : Bool) : (s.setFlag f).stack = s.stack := rfl
@[simp] theorem setFlag_sp (s : State) (f : Bool) : (s.setFlag f).sp = s.sp := rfl
@[simp] theorem setFlag_dt (s : State) (f : Bool) : (s.setFlag f).dt = s.dt := rfl
@[simp] theorem setFlag_st (s : State) (f : Bool) : (s.setFlag f).st = s.st := rfl
@[simp] theorem setFlag_fb (s : State) (f : Bool) : (s.setFlag f).fb = s.fb := rfl
@[simp] theorem setFlag_mode (s : State) (f : Bool) : (s.setFlag f).mode = s.mode := rfl
@[simp] theorem setFlag_keys (s : State) (f : Bool) : (s.setFlag f).keys = s.keys := rfl
@[simp] theorem setFlag_audio (s : State) (f : Bool) : (s.setFlag f).audio = s.audio := rfl
@[simp] theorem setFlag_halt (s : State) (f : Bool) : (s.setFlag f).halt = s.halt := rfl
@[simp] theorem setFlag_seq (s : State) (f : Bool) : (s.setFlag f).seq = s.seq := rfl
@[simp] theorem setFlag_runEn (s : State) (f : Bool) : (s.setFlag f).runEn = s.runEn := rfl
@[simp] theorem setFlag_keysIn (s : State) (f : Bool) : (s.setFlag f).keysIn = s.keysIn := rfl
@[simp] theorem setFlag_randIn (s : State) (f : Bool) : (s.setFlag f).randIn = s.randIn := rfl

/-! ### `setResultFlag` -/

@[simp] theorem setResultFlag_mem (s : State) (x : Nibble) (r : Byte) (f : Bool) : (s.setResultFlag x r f).mem = s.mem := rfl
@[simp] theorem setResultFlag_i (s : State) (x : Nibble) (r : Byte) (f : Bool) : (s.setResultFlag x r f).i = s.i := rfl
@[simp] theorem setResultFlag_pc (s : State) (x : Nibble) (r : Byte) (f : Bool) : (s.setResultFlag x r f).pc = s.pc := rfl
@[simp] theorem setResultFlag_stack (s : State) (x : Nibble) (r : Byte) (f : Bool) : (s.setResultFlag x r f).stack = s.stack := rfl
@[simp] theorem setResultFlag_sp (s : State) (x : Nibble) (r : Byte) (f : Bool) : (s.setResultFlag x r f).sp = s.sp := rfl
@[simp] theorem setResultFlag_dt (s : State) (x : Nibble) (r : Byte) (f : Bool) : (s.setResultFlag x r f).dt = s.dt := rfl
@[simp] theorem setResultFlag_st (s : State) (x : Nibble) (r : Byte) (f : Bool) : (s.setResultFlag x r f).st = s.st := rfl
@[simp] theorem setResultFlag_fb (s : State) (x : Nibble) (r : Byte) (f : Bool) : (s.setResultFlag x r f).fb = s.fb := rfl
@[simp] theorem setResultFlag_mode (s : State) (x : Nibble) (r : Byte) (f : Bool) : (s.setResultFlag x r f).mode = s.mode := rfl
@[simp] theorem setResultFlag_keys (s : State) (x : Nibble) (r : Byte) (f : Bool) : (s.setResultFlag x r f).keys = s.keys := rfl
@[simp] theorem setResultFlag_audio (s : State) (x : Nibble) (r : Byte) (f : Bool) : (s.setResultFlag x r f).audio = s.audio := rfl
@[simp] theorem setResultFlag_halt (s : State) (x : Nibble) (r : Byte) (f : Bool) : (s.setResultFlag x r f).halt = s.halt := rfl
@[simp] theorem setResultFlag_seq (s : State) (x : Nibble) (r : Byte) (f : Bool) : (s.setResultFlag x r f).seq = s.seq := rfl
@[simp] theorem setResultFlag_runEn (s : State) (x : Nibble) (r : Byte) (f : Bool) : (s.setResultFlag x r f).runEn = s.runEn := rfl
@[simp] theorem setResultFlag_keysIn (s : State) (x : Nibble) (r : Byte) (f : Bool) : (s.setResultFlag x r f).keysIn = s.keysIn := rfl
@[simp] theorem setResultFlag_randIn (s : State) (x : Nibble) (r : Byte) (f : Bool) : (s.setResultFlag x r f).randIn = s.randIn := rfl

/-! ### Reading a register after a write -/

theorem getV_setV (s : State) (x r : Nibble) (b : Byte) :
    (s.setV x b).getV r = if r = x then b else s.getV r := by
  have h : x.toNat = r.toNat ↔ r = x := by rw [eq_comm, BitVec.toNat_inj]
  simp [State.getV, State.setV, Vector.getElem_set, h]

@[simp] theorem getV_setV_same (s : State) (x : Nibble) (b : Byte) : (s.setV x b).getV x = b := by
  simp [getV_setV]

@[simp] theorem getV_setV_of_ne (s : State) (x r : Nibble) (b : Byte) (h : r ≠ x) :
    (s.setV x b).getV r = s.getV r := by
  simp [getV_setV, h]

theorem getV_setFlag (s : State) (r : Nibble) (f : Bool) :
    (s.setFlag f).getV r = if r = flagReg then flagByte f else s.getV r := getV_setV s flagReg r (flagByte f)

/-- The flag is what remains in VF, also where VF is the destination (10_state R24). -/
theorem getV_setResultFlag (s : State) (x r : Nibble) (b : Byte) (f : Bool) :
    (s.setResultFlag x b f).getV r = if r = flagReg then flagByte f else if r = x then b else s.getV r := by
  simp [State.setResultFlag, getV_setFlag, getV_setV]

/-- Two states with equal registers one by one have equal register files. -/
theorem v_ext (s t : State) (h : ∀ r, s.getV r = t.getV r) : s.v = t.v := by
  apply Vector.ext
  intro k hk
  have := h (BitVec.ofNat 4 k)
  simpa [State.getV, Nat.mod_eq_of_lt hk] using this

end Sys2Proof.Machine
end

