-- ==== Sys2Proof/Laws/Ops.lean ====
section
/-! SUPPORT. One lemma per shared operation: everything it can do. -/

namespace Sys2Proof.Machine

/-! ### Faults -/

theorem raise_eq (kind : FaultKind) (info : Word) (s : State) :
    raise kind info s = .next (s.setHalt (.faulted kind info (s.pc - 2))) := rfl

theorem raiseAt_eq (kind : FaultKind) (info fpc : Word) (s : State) :
    raiseAt kind info fpc s = .next (s.setHalt (.faulted kind info fpc)) := rfl

theorem withLastAddr_of_lt {last : Nat} (h : last < 0x1000) (body : State → Result) (s : State) :
    withLastAddr last body s = body s := by
  simp [withLastAddr, (inMemory_iff last).2 h]

theorem withLastAddr_of_ge {last : Nat} (h : 0x1000 ≤ last) (body : State → Result) (s : State) :
    withLastAddr last body s = .next (s.setHalt (.faulted .addressOutOfRange (BitVec.ofNat 16 last) (s.pc - 2))) := by
  have : ¬ inMemory last = true := by rw [inMemory_iff]; omega
  simp [withLastAddr, this, raise_eq]

/-- A range check answers its body's answer or the fault. -/
theorem withLastAddr_cases {last : Nat} {body : State → Result} {s t : State}
    (h : withLastAddr last body s = .next t) :
    (last < 0x1000 ∧ body s = .next t) ∨
    (0x1000 ≤ last ∧ t = s.setHalt (.faulted .addressOutOfRange (BitVec.ofNat 16 last) (s.pc - 2))) := by
  rcases Nat.lt_or_ge last 0x1000 with hl | hl
  · exact .inl ⟨hl, by rwa [withLastAddr_of_lt hl] at h⟩
  · rw [withLastAddr_of_ge hl] at h
    exact .inr ⟨hl, by injection h with h; exact h.symm⟩

theorem withKeyIndex_of_le {b : Byte} (h : b.toNat ≤ 15) (body : Nat → State → Result) (s : State) :
    withKeyIndex b body s = body b.toNat s := by simp [withKeyIndex, h]

theorem withKeyIndex_of_gt {b : Byte} (h : 15 < b.toNat) (body : Nat → State → Result) (s : State) :
    withKeyIndex b body s = .next (s.setHalt (.faulted .keyIndexOutOfRange (zext8 b) (s.pc - 2))) := by
  simp [withKeyIndex, Nat.not_le.2 h, raise_eq]

/-- A key index check answers its body's answer or the fault. -/
theorem withKeyIndex_cases {b : Byte} {body : Nat → State → Result} {s t : State}
    (h : withKeyIndex b body s = .next t) :
    (b.toNat ≤ 15 ∧ body b.toNat s = .next t) ∨
    (15 < b.toNat ∧ t = s.setHalt (.faulted .keyIndexOutOfRange (zext8 b) (s.pc - 2))) := by
  rcases Nat.lt_or_ge 15 b.toNat with hl | hl
  · rw [withKeyIndex_of_gt hl] at h
    exact .inr ⟨hl, by injection h with h; exact h.symm⟩
  · exact .inl ⟨hl, by rwa [withKeyIndex_of_le hl] at h⟩

theorem skipIf_eq (c : Bool) (s : State) : skipIf c s = .next (if c then s.advancePc else s) := rfl

/-! ### The stack -/

/-- A push answers exactly below 16 entries: PC in slot `SP`, the other slots and every other field as before. -/
theorem push_some {s : State} (h : s.sp.val < 16) :
    s.push = some { s with stack := s.stack.set s.sp.val s.pc h, sp := ⟨s.sp.val + 1, by omega⟩ } := by
  simp [State.push, h]

theorem push_none {s : State} (h : ¬ s.sp.val < 16) : s.push = none := by simp [State.push, h]

theorem pop_some {s : State} (h : 0 < s.sp.val) :
    s.pop = some { s with sp := ⟨s.sp.val - 1, by omega⟩, pc := s.stack[s.sp.val - 1]'(by omega) } := by
  simp [State.pop, h]

theorem pop_none {s : State} (h : ¬ 0 < s.sp.val) : s.pop = none := by simp [State.pop, h]

/-! ### Fetch -/

theorem fetch_of_le {s : State} (h : s.pc.toNat ≤ 0xFFE) :
    fetch s = some (wordOfBytes (s.mem.read s.pc.toNat) (s.mem.read (s.pc.toNat + 1))) := by
  have : inMemory (s.pc.toNat + 1) = true := (inMemory_iff _).2 (by omega)
  simp [fetch, this]

theorem fetch_of_gt {s : State} (h : 0xFFE < s.pc.toNat) : fetch s = none := by
  have : ¬ inMemory (s.pc.toNat + 1) = true := by rw [inMemory_iff]; omega
  simp [fetch, this]

/-! ### Moving registers to and from memory -/

theorem storeRegs_wf (s : State) (base : Nat) (hm : s.mem.wf = true) : ∀ n, (storeRegs s base n).wf = true
  | 0 => hm
  | k + 1 => write_wf _ _ _ (storeRegs_wf s base hm k)

/-- The bytes outside the stored range are as before. -/
theorem read_storeRegs_outside (s : State) (base a : Nat) :
    ∀ n, ¬ (base ≤ a ∧ a < base + n) → (storeRegs s base n).read a = s.mem.read a
  | 0, _ => rfl
  | k + 1, h => by
    rw [storeRegs, read_write_of_ne _ _ _ _ (by omega)]
    exact read_storeRegs_outside s base a k (by omega)

/-- Byte `k` of the stored range is `V[k]`. -/
theorem read_storeRegs_inside (s : State) (base : Nat) (hm : s.mem.wf = true) :
    ∀ n k, base + n ≤ 0x1000 → k < n → (storeRegs s base n).read (base + k) = s.getV (BitVec.ofNat 4 k)
  | 0, _, _, hk => absurd hk (by omega)
  | n + 1, k, hb, hk => by
    rw [storeRegs]
    by_cases h : k = n
    · subst h
      exact read_write_same _ _ _ (storeRegs_wf s base hm _) (by omega)
    · rw [read_write_of_ne _ _ _ _ (by omega)]
      exact read_storeRegs_inside s base hm n k (by omega) (by omega)

/-- Only `V` registers are loaded. -/
theorem loadRegs_eq (s : State) (base : Nat) :
    ∀ n, loadRegs s base n = { s with v := (loadRegs s base n).v }
  | 0 => rfl
  | n + 1 => by
    have ih := loadRegs_eq s base n
    rw [loadRegs, ih]
    rfl

/-- `V[r]` is the byte at `base + r` for the registers loaded, and as before for the others. -/
theorem getV_loadRegs (s : State) (base : Nat) (r : Nibble) :
    ∀ n, n ≤ 16 → (loadRegs s base n).getV r = if r.toNat < n then s.mem.read (base + r.toNat) else s.getV r
  | 0, _ => by simp [loadRegs]
  | n + 1, hn => by
    rw [loadRegs, getV_setV, getV_loadRegs s base r n (by omega)]
    have hr : r = BitVec.ofNat 4 n ↔ r.toNat = n := by
      rw [← BitVec.toNat_inj, BitVec.toNat_ofNat, Nat.mod_eq_of_lt (by omega)]
    by_cases h : r = BitVec.ofNat 4 n
    · simp [h, Nat.mod_eq_of_lt (show n < 16 by omega)]
    · have hne : r.toNat ≠ n := fun e => h (hr.2 e)
      simp only [h, if_false]
      by_cases h2 : r.toNat < n
      · simp [h2, show r.toNat < n + 1 by omega]
      · simp [h2, show ¬ r.toNat < n + 1 by omega]

/-! ### The key latch -/

/-- The least key answered is pressed and no lower one is. -/
theorem leastKey_eq_some {keys : Word} {k : Nat} :
    leastKey keys = some k ↔ k < 16 ∧ keys.getLsbD k = true ∧ ∀ j < k, keys.getLsbD j = false := by
  rw [leastKey, List.find?_range_eq_some]
  simp [and_left_comm]

/-- No key is answered exactly where none is pressed. -/
theorem leastKey_eq_none {keys : Word} : leastKey keys = none ↔ keys = 0 := by
  rw [leastKey, List.find?_eq_none]
  constructor
  · intro h
    apply BitVec.eq_of_getLsbD_eq
    intro k hk
    simpa using h k (List.mem_range.2 hk)
  · rintro rfl k _
    simp

/-! ### Ports and the sequencer -/

theorem value_nil {α : Type} (free : Nat → α) (n : Nat) :
    Port.value free { pending := [], taken := n } = free n := rfl

theorem value_cons {α : Type} (free : Nat → α) (a : α) (l : List α) (n : Nat) :
    Port.value free { pending := a :: l, taken := n } = a := rfl

theorem finishInvoke_of_none {k : Fin Config.cyclesPerFrame} {s : State} (h : s.halt = .none) :
    finishInvoke k s = s.setSeq (Seq.afterInvoke k) := by simp [finishInvoke, h]

theorem finishInvoke_of_ne {k : Fin Config.cyclesPerFrame} {s : State} (h : s.halt ≠ .none) :
    finishInvoke k s = s := by
  unfold finishInvoke
  split <;> simp_all

theorem execWord_of_ok {op : Word} {i : Instr} (h : decode op = .ok i) (s : State) : execWord op s = exec i s := by
  simp [execWord, h]

theorem execWord_of_error {op : Word} {e : DecodeError} (h : decode op = .error e) (s : State) :
    execWord op s = .next (s.setHalt (.faulted .unknownOpcode op (s.pc - 2))) := by
  simp [execWord, h, raise_eq]

end Sys2Proof.Machine
end

