-- ==== Sys2Proof/Laws/PerInstr.lean ====
section
/-! SUPPORT. The family RowBits: every instruction's word has the fixed bits of its row of spec/opcode_table.json
(30_encoding R96, columns match and mask). -/

namespace Sys2Proof.Laws.RowBits

/-- The row's mask (30_encoding R96). -/
def rowMask : Instr → Word
  | .op00E0 => 0xFFFF#16
  | .op00EE => 0xFFFF#16
  | .op0NNN _ => 0xF000#16
  | .op1NNN _ => 0xF000#16
  | .op2NNN _ => 0xF000#16
  | .op3XNN _ _ => 0xF000#16
  | .op4XNN _ _ => 0xF000#16
  | .op5XY0 _ _ => 0xF00F#16
  | .op6XNN _ _ => 0xF000#16
  | .op7XNN _ _ => 0xF000#16
  | .op8XY0 _ _ => 0xF00F#16
  | .op8XY1 _ _ => 0xF00F#16
  | .op8XY2 _ _ => 0xF00F#16
  | .op8XY3 _ _ => 0xF00F#16
  | .op8XY4 _ _ => 0xF00F#16
  | .op8XY5 _ _ => 0xF00F#16
  | .op8XY6 _ _ => 0xF00F#16
  | .op8XY7 _ _ => 0xF00F#16
  | .op8XYE _ _ => 0xF00F#16
  | .op9XY0 _ _ => 0xF00F#16
  | .opANNN _ => 0xF000#16
  | .opBNNN _ => 0xF000#16
  | .opCXNN _ _ => 0xF000#16
  | .opDXYN _ _ _ => 0xF000#16
  | .opEX9E _ => 0xF0FF#16
  | .opEXA1 _ => 0xF0FF#16
  | .opFX07 _ => 0xF0FF#16
  | .opFX0A _ => 0xF0FF#16
  | .opFX15 _ => 0xF0FF#16
  | .opFX18 _ => 0xF0FF#16
  | .opFX1E _ => 0xF0FF#16
  | .opFX29 _ => 0xF0FF#16
  | .opFX33 _ => 0xF0FF#16
  | .opFX55 _ => 0xF0FF#16
  | .opFX65 _ => 0xF0FF#16

/-- The row's match (30_encoding R96). -/
def rowMatch : Instr → Word
  | .op00E0 => 0x00E0#16
  | .op00EE => 0x00EE#16
  | .op0NNN _ => 0x0000#16
  | .op1NNN _ => 0x1000#16
  | .op2NNN _ => 0x2000#16
  | .op3XNN _ _ => 0x3000#16
  | .op4XNN _ _ => 0x4000#16
  | .op5XY0 _ _ => 0x5000#16
  | .op6XNN _ _ => 0x6000#16
  | .op7XNN _ _ => 0x7000#16
  | .op8XY0 _ _ => 0x8000#16
  | .op8XY1 _ _ => 0x8001#16
  | .op8XY2 _ _ => 0x8002#16
  | .op8XY3 _ _ => 0x8003#16
  | .op8XY4 _ _ => 0x8004#16
  | .op8XY5 _ _ => 0x8005#16
  | .op8XY6 _ _ => 0x8006#16
  | .op8XY7 _ _ => 0x8007#16
  | .op8XYE _ _ => 0x800E#16
  | .op9XY0 _ _ => 0x9000#16
  | .opANNN _ => 0xA000#16
  | .opBNNN _ => 0xB000#16
  | .opCXNN _ _ => 0xC000#16
  | .opDXYN _ _ _ => 0xD000#16
  | .opEX9E _ => 0xE09E#16
  | .opEXA1 _ => 0xE0A1#16
  | .opFX07 _ => 0xF007#16
  | .opFX0A _ => 0xF00A#16
  | .opFX15 _ => 0xF015#16
  | .opFX18 _ => 0xF018#16
  | .opFX1E _ => 0xF01E#16
  | .opFX29 _ => 0xF029#16
  | .opFX33 _ => 0xF033#16
  | .opFX55 _ => 0xF055#16
  | .opFX65 _ => 0xF065#16

/-- The word selects the instruction's row. -/
def Statement (i : Instr) : Prop := encode i &&& rowMask i = rowMatch i

/-! The formats, once for all rows: what a row's mask leaves of a word. -/

theorem formatNNN_group (g : Nibble) (nnn : Imm12) : formatNNN g nnn &&& 0xF000#16 = g ++ 0x000#12 := by
  apply BitVec.eq_of_getLsbD_eq
  intro k hk
  simp only [formatNNN, BitVec.getLsbD_and, BitVec.getLsbD_append]
  interval_cases k <;> simp

theorem formatXNN_group (g x : Nibble) (nn : Byte) : formatXNN g x nn &&& 0xF000#16 = g ++ 0x000#12 := by
  apply BitVec.eq_of_getLsbD_eq
  intro k hk
  simp only [formatXNN, BitVec.getLsbD_and, BitVec.getLsbD_append]
  interval_cases k <;> simp

theorem formatXNN_byte (g x : Nibble) (nn : Byte) : formatXNN g x nn &&& 0xF0FF#16 = g ++ 0x0#4 ++ nn := by
  apply BitVec.eq_of_getLsbD_eq
  intro k hk
  simp only [formatXNN, BitVec.getLsbD_and, BitVec.getLsbD_append]
  interval_cases k <;> simp

theorem formatXYN_group (g x y n : Nibble) : formatXYN g x y n &&& 0xF000#16 = g ++ 0x000#12 := by
  apply BitVec.eq_of_getLsbD_eq
  intro k hk
  simp only [formatXYN, BitVec.getLsbD_and, BitVec.getLsbD_append]
  interval_cases k <;> simp

theorem formatXYN_nib (g x y n : Nibble) : formatXYN g x y n &&& 0xF00F#16 = g ++ 0x00#8 ++ n := by
  apply BitVec.eq_of_getLsbD_eq
  intro k hk
  simp only [formatXYN, BitVec.getLsbD_and, BitVec.getLsbD_append]
  interval_cases k <;> simp

theorem op00E0 : Statement .op00E0 := rfl
theorem op00EE : Statement .op00EE := rfl
theorem op0NNN (nnn : Imm12) : Statement (.op0NNN nnn) := formatNNN_group _ _
theorem op1NNN (nnn : Imm12) : Statement (.op1NNN nnn) := formatNNN_group _ _
theorem op2NNN (nnn : Imm12) : Statement (.op2NNN nnn) := formatNNN_group _ _
theorem op3XNN (x : Nibble) (nn : Byte) : Statement (.op3XNN x nn) := formatXNN_group _ _ _
theorem op4XNN (x : Nibble) (nn : Byte) : Statement (.op4XNN x nn) := formatXNN_group _ _ _
theorem op5XY0 (x : Nibble) (y : Nibble) : Statement (.op5XY0 x y) := formatXYN_nib _ _ _ _
theorem op6XNN (x : Nibble) (nn : Byte) : Statement (.op6XNN x nn) := formatXNN_group _ _ _
theorem op7XNN (x : Nibble) (nn : Byte) : Statement (.op7XNN x nn) := formatXNN_group _ _ _
theorem op8XY0 (x : Nibble) (y : Nibble) : Statement (.op8XY0 x y) := formatXYN_nib _ _ _ _
theorem op8XY1 (x : Nibble) (y : Nibble) : Statement (.op8XY1 x y) := formatXYN_nib _ _ _ _
theorem op8XY2 (x : Nibble) (y : Nibble) : Statement (.op8XY2 x y) := formatXYN_nib _ _ _ _
theorem op8XY3 (x : Nibble) (y : Nibble) : Statement (.op8XY3 x y) := formatXYN_nib _ _ _ _
theorem op8XY4 (x : Nibble) (y : Nibble) : Statement (.op8XY4 x y) := formatXYN_nib _ _ _ _
theorem op8XY5 (x : Nibble) (y : Nibble) : Statement (.op8XY5 x y) := formatXYN_nib _ _ _ _
theorem op8XY6 (x : Nibble) (y : Nibble) : Statement (.op8XY6 x y) := formatXYN_nib _ _ _ _
theorem op8XY7 (x : Nibble) (y : Nibble) : Statement (.op8XY7 x y) := formatXYN_nib _ _ _ _
theorem op8XYE (x : Nibble) (y : Nibble) : Statement (.op8XYE x y) := formatXYN_nib _ _ _ _
theorem op9XY0 (x : Nibble) (y : Nibble) : Statement (.op9XY0 x y) := formatXYN_nib _ _ _ _
theorem opANNN (nnn : Imm12) : Statement (.opANNN nnn) := formatNNN_group _ _
theorem opBNNN (nnn : Imm12) : Statement (.opBNNN nnn) := formatNNN_group _ _
theorem opCXNN (x : Nibble) (nn : Byte) : Statement (.opCXNN x nn) := formatXNN_group _ _ _
theorem opDXYN (x : Nibble) (y : Nibble) (n : Nibble) : Statement (.opDXYN x y n) := formatXYN_group _ _ _ _
theorem opEX9E (x : Nibble) : Statement (.opEX9E x) := formatXNN_byte _ _ _
theorem opEXA1 (x : Nibble) : Statement (.opEXA1 x) := formatXNN_byte _ _ _
theorem opFX07 (x : Nibble) : Statement (.opFX07 x) := formatXNN_byte _ _ _
theorem opFX0A (x : Nibble) : Statement (.opFX0A x) := formatXNN_byte _ _ _
theorem opFX15 (x : Nibble) : Statement (.opFX15 x) := formatXNN_byte _ _ _
theorem opFX18 (x : Nibble) : Statement (.opFX18 x) := formatXNN_byte _ _ _
theorem opFX1E (x : Nibble) : Statement (.opFX1E x) := formatXNN_byte _ _ _
theorem opFX29 (x : Nibble) : Statement (.opFX29 x) := formatXNN_byte _ _ _
theorem opFX33 (x : Nibble) : Statement (.opFX33 x) := formatXNN_byte _ _ _
theorem opFX55 (x : Nibble) : Statement (.opFX55 x) := formatXNN_byte _ _ _
theorem opFX65 (x : Nibble) : Statement (.opFX65 x) := formatXNN_byte _ _ _

end Sys2Proof.Laws.RowBits
end

