-- ==== Sys2Proof/Laws/Sprite.lean ====
section
/-! SUPPORT. The framebuffer's laws: reading a pixel after a toggle or a clear, and the sprite engine's one lemma,
`drawSprite_spec`, built up pixel by pixel and row by row. -/

namespace Sys2Proof.Machine

/-- A toggle inverts its pixel and leaves every other one alone. -/
theorem pixel_togglePixel (fb : FrameBuffer) (r r' : Fin 32) (c c' : Fin 64) :
    pixel (togglePixel fb r c) r' c' = if r' = r ∧ c' = c then !pixel fb r c else pixel fb r' c' := by
  by_cases hr : r' = r
  · subst hr
    by_cases hc : c' = c
    · subst hc
      simp [pixel, togglePixel]
    · have : c.val ≠ c'.val := fun e => hc (Fin.ext e.symm)
      simp [pixel, togglePixel, hc, Vector.getElem_set_ne _ _ this]
  · have : r.val ≠ r'.val := fun e => hr (Fin.ext e.symm)
    simp [pixel, togglePixel, hr, Vector.getElem_set_ne _ _ this]

theorem pixel_clearedFb (r : Fin 32) (c : Fin 64) : pixel clearedFb r c = false := by
  simp [pixel, clearedFb]

/-- Two framebuffers with equal pixels are equal. -/
theorem fb_ext (a b : FrameBuffer) (h : ∀ r c, pixel a r c = pixel b r c) : a = b := by
  apply Vector.ext
  intro r hr
  apply Vector.ext
  intro c hc
  exact h ⟨r, hr⟩ ⟨c, hc⟩

/-- One sprite bit: the pixel it falls on is XORed with it, every other one is left alone. -/
theorem pixel_drawPixel (x0 y0 k : Nat) (b : Byte) (acc : FrameBuffer × Bool) (j : Nat) (r : Fin 32) (c : Fin 64) :
    pixel (drawPixel x0 y0 k b acc j).1 r c =
      if r = spriteRow y0 k ∧ c = spriteCol x0 j then Bool.xor (pixel acc.1 r c) (b.getLsbD (7 - j))
      else pixel acc.1 r c := by
  unfold drawPixel
  split
  · rename_i hb
    simp only [pixel_togglePixel, hb, Bool.xor_true]
    split
    · rename_i h
      rw [h.1, h.2]
    · rfl
  · rename_i hb
    simp [hb]

/-- The collision flag is sticky, and set where a sprite bit meets a pixel that was on. -/
theorem collision_drawPixel (x0 y0 k : Nat) (b : Byte) (acc : FrameBuffer × Bool) (j : Nat) :
    (drawPixel x0 y0 k b acc j).2 =
      (acc.2 || (b.getLsbD (7 - j) && pixel acc.1 (spriteRow y0 k) (spriteCol x0 j))) := by
  unfold drawPixel
  split <;> simp_all

theorem spriteBytes_length (m : Memory) (base n : Nat) : (spriteBytes m base n).length = n := by
  simp [spriteBytes]

theorem getElem?_spriteBytes (m : Memory) (base n k : Nat) :
    (spriteBytes m base n)[k]? = if k < n then some (m.read (base + k)) else none := by
  split <;> simp_all [spriteBytes]

/-! ### Rows and whole sprites -/

/-- Whether column `c` is hit by one of the row's first `m` bits. -/
def rowHit (x0 : Nat) (b : Byte) (m : Nat) (c : Fin 64) : Bool :=
  (List.range m).any fun j => b.getLsbD (7 - j) && decide (c = spriteCol x0 j)

/-- Whether a pixel is hit by the rows from `k` on. -/
def rowsHit (x0 y0 : Nat) : Nat → List Byte → Fin 32 → Fin 64 → Bool
  | _, [], _, _ => false
  | k, b :: bs, r, c => (decide (r = spriteRow y0 k) && rowHit x0 b 8 c) || rowsHit x0 y0 (k + 1) bs r c

theorem rowHit_succ (x0 : Nat) (b : Byte) (m : Nat) (c : Fin 64) :
    rowHit x0 b (m + 1) c = (rowHit x0 b m c || (b.getLsbD (7 - m) && decide (c = spriteCol x0 m))) := by
  simp [rowHit, List.range_succ]

theorem rowHit_self (x0 : Nat) (b : Byte) (m : Nat) (hm : m < 8) : rowHit x0 b m (spriteCol x0 m) = false := by
  rw [rowHit, List.any_eq_false]
  intro j hj
  have hj := List.mem_range.1 hj
  have : spriteCol x0 m ≠ spriteCol x0 j := by
    intro e
    have e := congrArg Fin.val e
    simp only [spriteCol, Fin.ofNat] at e
    omega
  simp [this]

theorem pixel_foldPixels (x0 y0 k : Nat) (b : Byte) (acc : FrameBuffer × Bool) (r : Fin 32) (c : Fin 64) :
    ∀ m, m ≤ 8 → pixel ((List.range m).foldl (drawPixel x0 y0 k b) acc).1 r c =
      Bool.xor (pixel acc.1 r c) (decide (r = spriteRow y0 k) && rowHit x0 b m c)
  | 0, _ => by simp [rowHit]
  | m + 1, hm => by
    rw [List.range_succ, List.foldl_append, List.foldl_cons, List.foldl_nil, pixel_drawPixel,
      pixel_foldPixels x0 y0 k b acc r c m (by omega), rowHit_succ]
    by_cases hr : r = spriteRow y0 k
    · by_cases hc : c = spriteCol x0 m
      · subst hc
        simp [hr, rowHit_self x0 b m (by omega)]
      · simp [hr, hc]
    · simp [hr]

theorem collision_foldPixels (x0 y0 k : Nat) (b : Byte) (acc : FrameBuffer × Bool) :
    ∀ m, m ≤ 8 → (((List.range m).foldl (drawPixel x0 y0 k b) acc).2 = true ↔
      acc.2 = true ∨ ∃ c, rowHit x0 b m c = true ∧ pixel acc.1 (spriteRow y0 k) c = true)
  | 0, _ => by simp [rowHit]
  | m + 1, hm => by
    rw [List.range_succ, List.foldl_append, List.foldl_cons, List.foldl_nil, collision_drawPixel, Bool.or_eq_true,
      collision_foldPixels x0 y0 k b acc m (by omega), pixel_foldPixels x0 y0 k b acc _ _ m (by omega),
      rowHit_self x0 b m (by omega), or_assoc]
    simp only [Bool.and_false, Bool.xor_false, rowHit_succ, Bool.or_eq_true, Bool.and_eq_true, decide_eq_true_iff]
    grind

/-- One sprite row. -/
theorem pixel_drawRow (x0 y0 k : Nat) (b : Byte) (acc : FrameBuffer × Bool) (r : Fin 32) (c : Fin 64) :
    pixel (drawRow x0 y0 k b acc).1 r c =
      Bool.xor (pixel acc.1 r c) (decide (r = spriteRow y0 k) && rowHit x0 b 8 c) :=
  pixel_foldPixels x0 y0 k b acc r c 8 (Nat.le_refl 8)

theorem collision_drawRow (x0 y0 k : Nat) (b : Byte) (acc : FrameBuffer × Bool) :
    (drawRow x0 y0 k b acc).2 = true ↔
      acc.2 = true ∨ ∃ c, rowHit x0 b 8 c = true ∧ pixel acc.1 (spriteRow y0 k) c = true :=
  collision_foldPixels x0 y0 k b acc 8 (Nat.le_refl 8)

theorem rowsHit_self (x0 y0 : Nat) : ∀ (bs : List Byte) (k k' : Nat) (c : Fin 64), k' < k → k + bs.length ≤ k' + 32 →
    rowsHit x0 y0 k bs (spriteRow y0 k') c = false
  | [], _, _, _, _, _ => rfl
  | b :: bs, k, k', c, h, hl => by
    have : spriteRow y0 k' ≠ spriteRow y0 k := by
      intro e
      have e := congrArg Fin.val e
      simp only [spriteRow, Fin.ofNat, List.length_cons] at e hl
      omega
    simp only [List.length_cons] at hl
    simp [rowsHit, this, rowsHit_self x0 y0 bs (k + 1) k' c (by omega) (by omega)]

/-- All rows: the framebuffer XOR the rows' footprint, as long as no row wraps onto another. -/
theorem pixel_drawRows (x0 y0 : Nat) (r : Fin 32) (c : Fin 64) : ∀ (bs : List Byte) (k : Nat)
    (acc : FrameBuffer × Bool), bs.length ≤ 32 →
    pixel (drawRows x0 y0 k bs acc).1 r c = Bool.xor (pixel acc.1 r c) (rowsHit x0 y0 k bs r c)
  | [], _, _, _ => by simp [drawRows, rowsHit]
  | b :: bs, k, acc, hl => by
    simp only [List.length_cons] at hl
    rw [drawRows, pixel_drawRows x0 y0 r c bs (k + 1) _ (by omega), pixel_drawRow, rowsHit]
    by_cases hr : r = spriteRow y0 k
    · subst hr
      simp [rowsHit_self x0 y0 bs (k + 1) k c (by omega) (by omega)]
    · simp [hr]

theorem collision_drawRows (x0 y0 : Nat) : ∀ (bs : List Byte) (k : Nat) (acc : FrameBuffer × Bool), bs.length ≤ 32 →
    ((drawRows x0 y0 k bs acc).2 = true ↔
      acc.2 = true ∨ ∃ r c, rowsHit x0 y0 k bs r c = true ∧ pixel acc.1 r c = true)
  | [], _, _, _ => by simp [drawRows, rowsHit]
  | b :: bs, k, acc, hl => by
    simp only [List.length_cons] at hl
    rw [drawRows, collision_drawRows x0 y0 bs (k + 1) _ (by omega), collision_drawRow, or_assoc]
    refine or_congr_right ?_
    constructor
    · rintro (⟨c, h1, h2⟩ | ⟨r, c, h1, h2⟩)
      · exact ⟨_, c, by simp [rowsHit, h1], h2⟩
      · have hr : r ≠ spriteRow y0 k := by
          rintro rfl
          rw [rowsHit_self x0 y0 bs (k + 1) k c (by omega) (by omega)] at h1
          cases h1
        rw [pixel_drawRow] at h2
        exact ⟨r, c, by simp [rowsHit, h1], by simpa [hr] using h2⟩
    · rintro ⟨r, c, h1, h2⟩
      by_cases hr : r = spriteRow y0 k
      · subst hr
        rw [rowsHit, rowsHit_self x0 y0 bs (k + 1) k c (by omega) (by omega)] at h1
        exact .inl ⟨c, by simpa using h1, h2⟩
      · exact .inr ⟨r, c, by simpa [rowsHit, hr] using h1, by simpa [pixel_drawRow, hr] using h2⟩

theorem rowHit_iff (x0 : Nat) (b : Byte) (c : Fin 64) :
    rowHit x0 b 8 c = true ↔ ∃ j, j < 8 ∧ b.getLsbD (7 - j) = true ∧ c.val = (x0 + j) % 64 := by
  simp [rowHit, spriteCol, Fin.ext_iff, List.any_eq_true]

theorem rowsHit_iff (x0 y0 : Nat) (r : Fin 32) (c : Fin 64) : ∀ (bs : List Byte) (k : Nat),
    rowsHit x0 y0 k bs r c = true ↔ ∃ i b, bs[i]? = some b ∧ r.val = (y0 + (k + i)) % 32 ∧ rowHit x0 b 8 c = true
  | [], _ => by simp [rowsHit]
  | b :: bs, k => by
    rw [rowsHit, Bool.or_eq_true, rowsHit_iff x0 y0 r c bs (k + 1), Bool.and_eq_true, decide_eq_true_iff]
    constructor
    · rintro (⟨h1, h2⟩ | ⟨i, b', h1, h2, h3⟩)
      · exact ⟨0, b, rfl, by simpa [spriteRow, Fin.ext_iff] using h1, h2⟩
      · exact ⟨i + 1, b', h1, by rw [h2]; congr 1; omega, h3⟩
    · rintro ⟨i, b', h1, h2, h3⟩
      cases i with
      | zero =>
        cases h1
        exact .inl ⟨by simpa [spriteRow, Fin.ext_iff] using h2, h3⟩
      | succ i => exact .inr ⟨i, b', h1, by rw [h2]; congr 1; omega, h3⟩

theorem rowsHit_inFootprint (bytes : List Byte) (x0 y0 : Nat) (r : Fin 32) (c : Fin 64) :
    rowsHit x0 y0 0 bytes r c = true ↔ InFootprint bytes x0 y0 r c := by
  rw [rowsHit_iff]
  simp only [rowHit_iff, InFootprint, Nat.zero_add]
  constructor
  · rintro ⟨k, b, h1, h2, j, h3, h4, h5⟩
    exact ⟨k, j, b, h1, h3, h4, h2, h5⟩
  · rintro ⟨k, j, b, h1, h3, h4, h2, h5⟩
    exact ⟨k, b, h1, h2, j, h3, h4, h5⟩

/-- Everything the sprite engine does: the framebuffer XOR the sprite's footprint, and the collision flag. -/
theorem drawSprite_spec (bytes : List Byte) (x0 y0 : Nat) (fb : FrameBuffer) (hl : bytes.length ≤ 32) :
    (∀ r c, InFootprint bytes x0 y0 r c → pixel (drawSprite bytes x0 y0 fb).1 r c = !pixel fb r c) ∧
    (∀ r c, ¬ InFootprint bytes x0 y0 r c → pixel (drawSprite bytes x0 y0 fb).1 r c = pixel fb r c) ∧
    ((drawSprite bytes x0 y0 fb).2 = true ↔ ∃ r c, InFootprint bytes x0 y0 r c ∧ pixel fb r c = true) := by
  have hp := fun r c => pixel_drawRows x0 y0 r c bytes 0 (fb, false) hl
  refine ⟨fun r c h => ?_, fun r c h => ?_, ?_⟩
  · rw [drawSprite, hp, (rowsHit_inFootprint ..).2 h, Bool.xor_true]
  · rw [drawSprite, hp, Bool.eq_false_iff.2 (fun e => h ((rowsHit_inFootprint ..).1 e)), Bool.xor_false]
  · rw [drawSprite, collision_drawRows _ _ _ _ _ hl]
    simp [rowsHit_inFootprint]
end Sys2Proof.Machine
end

