-- ==== Sys2Proof/Tests/Slice0.lean ====
section
/-! SUPPORT. The model's own tests: ill-formed terms refused, words written out from the encodings, one or two vectors of
spec/95_test_vectors.md per instruction, and for each obligation with hypotheses a state and operands that meet them. -/

namespace Sys2Proof.Tests

open Sys2Proof Sys2Proof.Machine

/-! ### Helpers -/

/-- Whether a result is a next state that passes a check. -/
def nextIs (o : Result) (p : State → Bool) : Bool :=
  match o with
  | .next t => p t
  | .fault _ => false
  | .refused _ => false

/-- The start state of 95_test_vectors section 2 with some registers set. -/
def regs (l : List (Nibble × Byte)) : State := l.foldl (fun s p => s.setV p.1 p.2) State.reset

/-- One invocation of a word at PC. -/
def runWord (w : Nat) (s : State) : Result := step (s.withFetchWord 16 w)

/-- V1, V2 and VF after a word, from V1 = `a`, V2 = `b`, VF = 0xAA. -/
def aluIs (w : Nat) (a b r f : Byte) : Bool :=
  nextIs (runWord w (regs [(1, a), (2, b), (0xF, 0xAA)])) fun t => t.getV 1 == r && t.getV 2 == b && t.getV 0xF == f

/-- The halt a word leaves, and PC. -/
def haltIs (w : Nat) (s : State) (h : Halt) (pc : Word) : Bool :=
  nextIs (runWord w s) fun t => decide (t.halt = h) && t.pc == pc

/-- Invocation `k`'s position. -/
def inv (k : Fin 8) : Seq := .invoke k

/-- An input port with some samples fixed. -/
def port {α : Type} (l : List α) : Port α := ⟨l, 0⟩

/-- The state about to run invocation `k` with the word `op` at `pc`. -/
def readyAt (pc op : Word) (k : Fin 8) : State :=
  { State.reset with mem := storeWord [] pc.toNat op, pc := pc, seq := inv k }

/-- The number of pixels on in the first `n` rows of a framebuffer's corner of 16 columns. -/
def litCorner (fb : FrameBuffer) (n : Nat) : Nat :=
  ((List.range n).map fun r => ((List.range 16).filter fun c => pixel fb (Fin.ofNat 32 r) (Fin.ofNat 64 c)).length).sum

/-! ### Well-formedness: the only check is on 0NNN -/

theorem test_wf_refuses_00E0 : (Instr.op0NNN 0x0E0).wf = false := by decide

theorem test_wf_refuses_00EE : (Instr.op0NNN 0x0EE).wf = false := by decide

theorem test_wf_accepts_neighbours : (Instr.op0NNN 0x0E1).wf = true ∧ (Instr.op0NNN 0x000).wf = true := by decide

/-! ### Decoding: one word per constructor, bit by bit from 30_encoding section 3 -/

theorem test_decode_control :
    decode 0b0000000011100000#16 = .ok .op00E0 ∧ decode 0b0000000011101110#16 = .ok .op00EE ∧
    decode 0b0000000100100011#16 = .ok (.op0NNN 0x123) ∧ decode 0b0001101010111100#16 = .ok (.op1NNN 0xABC) ∧
    decode 0b0010001100000001#16 = .ok (.op2NNN 0x301) ∧ decode 0b1011001000000001#16 = .ok (.opBNNN 0x201) := by decide

theorem test_decode_skips :
    decode 0b0011001000010000#16 = .ok (.op3XNN 0x2 0x10) ∧ decode 0b0100001000010001#16 = .ok (.op4XNN 0x2 0x11) ∧
    decode 0b0101000100100000#16 = .ok (.op5XY0 0x1 0x2) ∧ decode 0b1001000100100000#16 = .ok (.op9XY0 0x1 0x2) ∧
    decode 0b1110000110011110#16 = .ok (.opEX9E 0x1) ∧ decode 0b1110000110100001#16 = .ok (.opEXA1 0x1) := by decide

theorem test_decode_alu :
    decode 0b0110101000000101#16 = .ok (.op6XNN 0xA 0x05) ∧ decode 0b0111000100100000#16 = .ok (.op7XNN 0x1 0x20) ∧
    decode 0b1000000100100000#16 = .ok (.op8XY0 0x1 0x2) ∧ decode 0b1000000100100001#16 = .ok (.op8XY1 0x1 0x2) ∧
    decode 0b1000000100100010#16 = .ok (.op8XY2 0x1 0x2) ∧ decode 0b1000000100100011#16 = .ok (.op8XY3 0x1 0x2) ∧
    decode 0b1000000100100100#16 = .ok (.op8XY4 0x1 0x2) ∧ decode 0b1000000100100101#16 = .ok (.op8XY5 0x1 0x2) ∧
    decode 0b1000000100100110#16 = .ok (.op8XY6 0x1 0x2) ∧ decode 0b1000000100100111#16 = .ok (.op8XY7 0x1 0x2) ∧
    decode 0b1000000100101110#16 = .ok (.op8XYE 0x1 0x2) ∧ decode 0b1100001100001111#16 = .ok (.opCXNN 0x3 0x0F) := by
  decide

theorem test_decode_memory :
    decode 0b1010001000010000#16 = .ok (.opANNN 0x210) ∧ decode 0b1101000000010101#16 = .ok (.opDXYN 0x0 0x1 0x5) ∧
    decode 0b1111001000011110#16 = .ok (.opFX1E 0x2) ∧ decode 0b1111010000101001#16 = .ok (.opFX29 0x4) ∧
    decode 0b1111010100110011#16 = .ok (.opFX33 0x5) ∧ decode 0b1111001001010101#16 = .ok (.opFX55 0x2) ∧
    decode 0b1111010001100101#16 = .ok (.opFX65 0x4) := by decide

theorem test_decode_timers :
    decode 0b1111001100000111#16 = .ok (.opFX07 0x3) ∧ decode 0b1111010100001010#16 = .ok (.opFX0A 0x5) ∧
    decode 0b1111001100010101#16 = .ok (.opFX15 0x3) ∧ decode 0b1111001100011000#16 = .ok (.opFX18 0x3) := by decide

/-- 95_test_vectors 2.4: the illegal words named there, rejected by name. -/
theorem test_decode_illegal : ([0x5121#16, 0x512F, 0x8128, 0x8129, 0x812A, 0x812B, 0x812C, 0x812D, 0x812F, 0x9121,
    0xE100, 0xE19F, 0xE1A0, 0xF100, 0xF1FF, 0xF106, 0xF156, 0xF166].all
      fun w => decide (decode w = .error (.unknownOpcode w))) = true := by decide

/-- Two bytes, the first the high byte; fewer are refused by name. -/
theorem test_decode_bytes : decodeBytes [0x12, 0x34, 0x56] = .ok (.op1NNN 0x234, [0x56]) ∧
    decodeBytes [0x12] = .error .truncated ∧ encodeBytes (.op1NNN 0x234) = [0x12, 0x34] := by decide

/-- The table's word number is the instruction's word. -/
theorem test_decode_table_word : decodeTableWord 16 0x8AB4 = some (.op8XY4 0xA 0xB) ∧
    decodeTableWord 16 0x00E0 = some .op00E0 ∧ decodeTableWord 16 0x5001 = none := by decide

/-! ### Control flow (95_test_vectors 2.1) -/

/-- J1, J3. -/
theorem test_1NNN : nextIs (runWord 0x1ABC State.reset) (fun t => t.pc == 0x0ABC) = true ∧
    nextIs (runWord 0x1FFF State.reset) (fun t => nextIs (step t) fun u =>
      decide (u.halt = .faulted .addressOutOfRange 0x0FFF 0x0FFF) && u.pc == 0x0FFF) = true := by decide

/-- J5, J6. -/
theorem test_BNNN : nextIs (runWord 0xBFFF (regs [(0, 0xFF)])) (fun t => t.pc == 0x10FE) = true ∧
    nextIs (runWord 0xB300 (regs [(0, 0x04), (3, 0x50)])) (fun t => t.pc == 0x0304) = true := by decide

/-- N2, N3: no fault, PC = 0x202. -/
theorem test_0NNN : haltIs 0x0123 State.reset .none 0x0202 = true ∧ haltIs 0x00E1 State.reset .none 0x0202 = true := by
  decide

/-- C1. -/
theorem test_2NNN_pushes : nextIs (runWord 0x2300 State.reset) (fun t =>
    t.stack[0] == 0x0202 && t.sp.val == 1 && t.pc == 0x0300) = true := by decide

/-- F1: the seventeenth call. -/
theorem test_2NNN_overflow :
    nextIs (runWord 0x2200 { State.reset with sp := 16, stack := Vector.replicate 16 0x0202 }) (fun t =>
      decide (t.halt = .faulted .stackOverflow 0x2200 0x0200) && t.pc == 0x0202 && t.sp.val == 16 &&
      decide (t.stack = Vector.replicate 16 0x0202)) = true := by decide

/-- R131's example. -/
theorem test_00EE_pops :
    nextIs (runWord 0x00EE { State.reset with sp := 1, stack := Vector.replicate 16 0x0204 }) (fun t =>
      t.pc == 0x0204 && t.sp.val == 0) = true := by decide

/-- F2. -/
theorem test_00EE_underflow : haltIs 0x00EE State.reset (.faulted .stackUnderflow 0x00EE 0x0200) 0x0202 = true := by
  decide

/-- K1, K2. -/
theorem test_3XNN : nextIs (runWord 0x3210 (regs [(2, 0x10)])) (fun t => t.pc == 0x204) = true ∧
    nextIs (runWord 0x3210 (regs [(2, 0x11)])) (fun t => t.pc == 0x202) = true := by decide

/-- K3, K4. -/
theorem test_4XNN : nextIs (runWord 0x4210 (regs [(2, 0x10)])) (fun t => t.pc == 0x202) = true ∧
    nextIs (runWord 0x4210 (regs [(2, 0x11)])) (fun t => t.pc == 0x204) = true := by decide

/-- K5, K6. -/
theorem test_5XY0 : nextIs (runWord 0x5120 (regs [(1, 7), (2, 7)])) (fun t => t.pc == 0x204) = true ∧
    nextIs (runWord 0x5120 (regs [(1, 7), (2, 8)])) (fun t => t.pc == 0x202) = true := by decide

/-- K8, K9. -/
theorem test_9XY0 : nextIs (runWord 0x9120 (regs [(1, 7), (2, 7)])) (fun t => t.pc == 0x202) = true ∧
    nextIs (runWord 0x9120 (regs [(1, 7), (2, 8)])) (fun t => t.pc == 0x204) = true := by decide

/-! ### ALU (95_test_vectors 2.2) -/

theorem test_6XNN : nextIs (runWord 0x6A05 (regs [(0xA, 0xFF)])) (fun t => t.getV 0xA == 0x05) = true ∧
    nextIs (runWord 0x6F01 State.reset) (fun t => t.getV 0xF == 0x01) = true := by decide

theorem test_7XNN : aluIs 0x7101 0xFF 0x33 0x00 0xAA = true ∧
    nextIs (runWord 0x7F01 (regs [(0xF, 0xFF)])) (fun t => t.getV 0xF == 0x00) = true := by decide

theorem test_8XY0 : aluIs 0x8120 0x05 0x03 0x03 0xAA = true ∧
    nextIs (runWord 0x8F20 (regs [(2, 0x33)])) (fun t => t.getV 0xF == 0x33) = true := by decide

theorem test_8XY1 : aluIs 0x8121 0x05 0x03 0x07 0xAA = true ∧
    nextIs (runWord 0x8F21 (regs [(0xF, 0x0F), (2, 0xF0)])) (fun t => t.getV 0xF == 0xFF) = true := by decide

theorem test_8XY2 : aluIs 0x8122 0x05 0x03 0x01 0xAA = true ∧ aluIs 0x8122 0x7F 0x80 0x00 0xAA = true := by decide

theorem test_8XY3 : aluIs 0x8123 0x05 0x03 0x06 0xAA = true ∧ aluIs 0x8123 0x80 0x80 0x00 0xAA = true := by decide

theorem test_8XY4 : aluIs 0x8124 0xFF 0x01 0x00 0x01 = true ∧ aluIs 0x8124 0x7F 0x80 0xFF 0x00 = true ∧
    nextIs (runWord 0x81F4 (regs [(1, 0x10), (0xF, 0x01)])) (fun t => t.getV 1 == 0x11 && t.getV 0xF == 0) = true := by
  decide

theorem test_8XY5 : aluIs 0x8125 0x05 0x03 0x02 0x01 = true ∧ aluIs 0x8125 0x00 0x01 0xFF 0x00 = true ∧
    aluIs 0x8125 0x3C 0x3C 0x00 0x01 = true ∧
    nextIs (runWord 0x8F25 (regs [(0xF, 0x05), (2, 0x03)])) (fun t => t.getV 0xF == 0x01) = true := by decide

theorem test_8XY6 : aluIs 0x8126 0x7F 0x80 0x3F 0x01 = true ∧ aluIs 0x8126 0x80 0x80 0x40 0x00 = true ∧
    nextIs (runWord 0x8F26 (regs [(0xF, 0x80), (2, 0x01)])) (fun t => t.getV 0xF == 0x00) = true := by decide

theorem test_8XY7 : aluIs 0x8127 0x05 0x03 0xFE 0x00 = true ∧ aluIs 0x8127 0x7F 0x80 0x01 0x01 = true ∧
    aluIs 0x8127 0x80 0x80 0x00 0x01 = true := by decide

theorem test_8XYE : aluIs 0x812E 0x80 0x80 0x00 0x01 = true ∧ aluIs 0x812E 0x7F 0x80 0xFE 0x00 = true ∧
    nextIs (runWord 0x811E (regs [(1, 0x90), (0xF, 0xAA)])) (fun t => t.getV 1 == 0x20 && t.getV 0xF == 1) = true := by
  decide

/-- The draws of the table, one consumed each. -/
theorem test_CXNN :
    nextIs (runWord 0xC30F { State.reset with randIn := port [0xB7, 0x5A] }) (fun t =>
      t.getV 3 == 0x07 && decide (t.randIn = ⟨[0x5A], 1⟩)) = true ∧
    nextIs (runWord 0xC300 { State.reset with randIn := ⟨[0xFF], 4⟩ }) (fun t =>
      t.getV 3 == 0x00 && t.randIn.taken == 5) = true := by decide

/-! ### Index register and memory (95_test_vectors 2.3) -/

/-- I1, I2. -/
theorem test_ANNN : nextIs (runWord 0xA210 State.reset) (fun t => t.i == 0x0210) = true ∧
    nextIs (runWord 0xAFFF { State.reset with i := 0xFFFF }) (fun t => t.i == 0x0FFF) = true := by decide

/-- I4, I6. -/
theorem test_FX1E :
    nextIs (runWord 0xF21E { regs [(2, 0x01), (0xF, 0xAA)] with i := 0x0FFF }) (fun t =>
      t.i == 0x1000 && t.getV 0xF == 0xAA) = true ∧
    nextIs (runWord 0xF21E { regs [(2, 0xFF)] with i := 0xFF80 }) (fun t => t.i == 0x007F) = true := by decide

/-- I7. -/
theorem test_FX29 : ([(0x00#8, 0x0000#16), (0x01, 0x0005), (0x0A, 0x0032), (0x0F, 0x004B), (0x10, 0x0050),
    (0xFF, 0x04FB)].all fun p => nextIs (runWord 0xF429 (regs [(4, p.1)])) fun t => t.i == p.2) = true := by decide

/-- B1 (156), B2. -/
theorem test_FX33_digits :
    nextIs (runWord 0xF533 { regs [(5, 0x9C)] with i := 0x300 }) (fun t => t.mem.read 0x300 == 1 &&
      t.mem.read 0x301 == 5 && t.mem.read 0x302 == 6 && t.i == 0x300) = true ∧
    nextIs (runWord 0xF033 { regs [(0, 0x7B)] with i := 0xFFD }) (fun t => t.mem.read 0xFFD == 1 &&
      t.mem.read 0xFFF == 3 && decide (t.halt = .none)) = true := by decide

/-- B3. -/
theorem test_FX33_range :
    nextIs (runWord 0xF033 { regs [(0, 0x7B)] with i := 0xFFE, pc := 0x202 }) (fun t =>
      decide (t.halt = .faulted .addressOutOfRange 0x1000 0x202) && t.pc == 0x204 && t.mem.read 0xFFE == 0) = true := by
  decide

/-- M1, M6: V3 is not stored; the font is writable. -/
theorem test_FX55 :
    nextIs (runWord 0xF255 { regs [(0, 0x11), (1, 0x22), (2, 0x33), (3, 0x44)] with i := 0x400 }) (fun t =>
      t.mem.read 0x400 == 0x11 && t.mem.read 0x401 == 0x22 && t.mem.read 0x402 == 0x33 && t.mem.read 0x403 == 0 &&
      t.i == 0x400) = true ∧
    nextIs (runWord 0xF055 (regs [(0, 0x77)])) (fun t => t.mem.read 0 == 0x77) = true := by decide

/-- M3. -/
theorem test_FX55_range :
    nextIs (runWord 0xFF55 { regs [(0, 0x11)] with i := 0xFF1, pc := 0x202 }) (fun t =>
      decide (t.halt = .faulted .addressOutOfRange 0x1000 0x202) && t.mem.read 0xFF1 == 0) = true := by decide

/-- M4: the font's first glyph; V5 keeps. -/
theorem test_FX65 :
    nextIs (runWord 0xF465 (regs [(0, 0xEE), (4, 0xEE), (5, 0xEE)])) (fun t => t.getV 0 == 0xF0 && t.getV 1 == 0x90 &&
      t.getV 2 == 0x90 && t.getV 3 == 0x90 && t.getV 4 == 0xF0 && t.getV 5 == 0xEE && t.i == 0) = true := by decide

/-- M5. -/
theorem test_FX65_range :
    nextIs (runWord 0xFF65 { regs [(0, 0x11)] with i := 0xFF1, pc := 0x202 }) (fun t =>
      decide (t.halt = .faulted .addressOutOfRange 0x1000 0x202) && t.getV 0 == 0x11) = true := by decide

/-! ### Display (95_test_vectors 2.5) -/

/-- E1: every pixel off, VF kept. -/
theorem test_00E0 :
    nextIs (runWord 0x00E0 { regs [(0xF, 0x01)] with fb := Vector.replicate 32 (Vector.replicate 64 true) }) (fun t =>
      litCorner t.fb 8 == 0 && pixel t.fb 31 63 == false && t.getV 0xF == 0x01) = true := by decide

/-- X1, first draw: glyph 0 at (0, 0), 14 pixels; W1: eight bits from column 63 wrap. -/
theorem test_DXYN_draws :
    nextIs (runWord 0xD005 (regs [(0xF, 0x07)])) (fun t => litCorner t.fb 6 == 14 && pixel t.fb 1 3 && !pixel t.fb 1 1 &&
      t.getV 0xF == 0x00) = true ∧
    nextIs (runWord 0xD011 { regs [(0, 0x3F), (1, 0x1F)] with i := 0x208, mem := [(0x208, 0xFF)] }) (fun t =>
      pixel t.fb 31 63 && pixel t.fb 31 0 && pixel t.fb 31 6 && !pixel t.fb 31 7 && !pixel t.fb 0 0) = true := by decide

/-- Collision on an on pixel; Z2 and Z4: the range check, not made for n = 0. -/
theorem test_DXYN_collides :
    nextIs (runWord 0xD001 { State.reset with fb := togglePixel clearedFb 0 3 }) (fun t =>
      t.getV 0xF == 0x01 && !pixel t.fb 0 3 && pixel t.fb 0 2) = true ∧
    nextIs (runWord 0xD000 { regs [(0xF, 0x07)] with i := 0x0FFF }) (fun t =>
      t.getV 0xF == 0x00 && decide (t.halt = .none)) = true ∧
    haltIs 0xD002 { State.reset with i := 0x0FFF, pc := 0x202 } (.faulted .addressOutOfRange 0x1000 0x202) 0x204 = true := by
  decide

/-! ### Keypad and timers (95_test_vectors 2.6) -/

/-- Q1, Q2, Q7. -/
theorem test_EX9E :
    nextIs (runWord 0xE19E { regs [(1, 5)] with keys := 0x0020 }) (fun t => t.pc == 0x204) = true ∧
    nextIs (runWord 0xE19E (regs [(1, 5)])) (fun t => t.pc == 0x202) = true ∧
    haltIs 0xE19E { regs [(1, 0x10)] with pc := 0x202 } (.faulted .keyIndexOutOfRange 0x0010 0x202) 0x204 = true := by
  decide

/-- Q3, Q4, Q8. -/
theorem test_EXA1 :
    nextIs (runWord 0xE1A1 { regs [(1, 5)] with keys := 0x0020 }) (fun t => t.pc == 0x202) = true ∧
    nextIs (runWord 0xE1A1 (regs [(1, 5)])) (fun t => t.pc == 0x204) = true ∧
    haltIs 0xE1A1 { regs [(1, 0xFF)] with pc := 0x202 } (.faulted .keyIndexOutOfRange 0x00FF 0x202) 0x204 = true := by
  decide

/-- T1. -/
theorem test_FX07 :
    nextIs (runWord 0xF307 { State.reset with dt := 0x2A, st := 0x55 }) (fun t => t.getV 3 == 0x2A) = true := by
  decide

/-- T2. -/
theorem test_FX15 : nextIs (runWord 0xF315 (regs [(3, 0x3C)])) (fun t => t.dt == 0x3C && t.st == 0) = true := by decide

/-- T3. -/
theorem test_FX18 :
    nextIs (runWord 0xF318 (regs [(3, 0x05)])) (fun t => t.st == 0x05 && t.dt == 0 && !t.audio) = true := by
  decide

/-- W1k, W2k: the wait is entered whatever is pressed; the poll takes the lowest key and fetches nothing. -/
theorem test_FX0A :
    nextIs (runWord 0xF50A { State.reset with keys := 0x0008 }) (fun t =>
      decide (t.mode = .awaitingKey 5) && t.pc == 0x202 && t.getV 5 == 0) = true ∧
    nextIs (step { State.reset with keys := 0x8200, mode := .awaitingKey 5, seq := inv 1, pc := 0x202 }) (fun t =>
      t.getV 5 == 0x09 && decide (t.mode = .running) && t.pc == 0x202 && decide (t.seq = inv 2)) = true := by decide

/-! ### The frame, reset and load -/

/-- 60_exceptions section 6: the frame start with the run flag set samples the keys; with it clear the core stops first. -/
theorem test_frame_start :
    nextIs (step { State.reset with runEn := port [true], keysIn := port [0x0008] }) (fun t =>
      t.keys == 0x0008 && decide (t.seq = inv 0) && decide (t.halt = .none)) = true ∧
    nextIs (step { State.reset with keys := 1, runEn := port [false], keysIn := port [0x0008] }) (fun t =>
      t.keys == 1 && decide (t.halt = .stopped) && t.faultCode == 0) = true := by decide

/-- 95_test_vectors A2: an ST of 1 never sounds; the tick floors at 0. -/
theorem test_tick_and_audio :
    nextIs (step { State.reset with seq := .tick, st := 1 }) (fun t => t.st == 0 && t.dt == 0 &&
      nextIs (step t) (fun u => !u.audio && decide (u.seq = .present))) = true ∧
    nextIs (step { State.reset with seq := .audioUpdate, st := 1 }) (fun u => u.audio) = true := by decide

/-- F4: an illegal word as the last invocation's truncates the frame. -/
theorem test_fault_truncates_frame :
    nextIs (step (readyAt 0x206 0x8128 7)) (fun t =>
      decide (t.halt = .faulted .unknownOpcode 0x8128 0x206) && t.pc == 0x208 && decide (t.seq = inv 7) &&
      t.faultCode == 4 && t.halted && !nextIs (step t) (fun _ => true)) = true := by decide

/-- The font (10_state section 6): the first, an inner and the last byte; 0 above it. -/
theorem test_reset_memory : State.reset.mem.read 0x000 = 0xF0 ∧ State.reset.mem.read 0x01E = 0xF0 ∧
    State.reset.mem.read 0x04F = 0x80 ∧ State.reset.mem.read 0x050 = 0x00 ∧ State.reset.mem.wf = true := by decide

/-- 70_reset section 2: two bytes at 0x200. -/
theorem test_rom_load : (boot [0x12, 0x34]).mem.read 0x200 = 0x12 ∧ (boot [0x12, 0x34]).mem.read 0x201 = 0x34 ∧
    (boot [0x12, 0x34]).mem.read 0x202 = 0x00 ∧ (boot []).mem = [] := by decide

/-- A write of the reset contents removes the entry; entries stay sorted; nothing is written at 0x1000. -/
theorem test_memory_canonical : Memory.write [(0x300, 0x05)] 0x300 0x00 = [] ∧
    Memory.write [(0x300, 0x05)] 0x2FF 0x01 = [(0x2FF, 0x01), (0x300, 0x05)] ∧
    Memory.write [] 0x000 0xF0 = [] ∧ Memory.write [] 0x1000 0x01 = [] := by decide

/-- Ill-formed memories: out of order, a listed reset byte, an address that does not exist. -/
theorem test_memory_ill_formed : Memory.wf [(2, 0x01), (1, 0x01)] = false ∧ Memory.wf [(0x300, 0x00)] = false ∧
    Memory.wf [(0x1000, 0x01)] = false := by decide

/-! ### Witnesses: for each obligation with hypotheses, a state and operands that meet all of them, each clause at a
boundary value -/

theorem test_hyps_DecodeEncodeRoundTrip :
    (Instr.op0NNN 0x0ED).wf = true ∧ (Instr.op0NNN 0x0EF).wf = true ∧
    (Instr.opDXYN 0xF 0xF 0xF).wf = true := by decide

theorem test_hyps_EncodeDecodeRoundTrip :
    decode 0x0000#16 = .ok (.op0NNN 0) ∧ decode 0xFF65#16 = .ok (.opFX65 0xF) := by
  decide

/-- The fields of one word, as DecodeFollowsProcedure takes them: group, low nibble, low byte. -/
def fieldsAre (op g n nn : Nat) : Bool := op / 4096 == g && op % 16 == n && op % 256 == nn

/-- One word for each clause of DecodeFollowsProcedure, group by group. -/
theorem test_hyps_DecodeFollowsProcedure :
    (fieldsAre 0x00E1 0 1 0xE1 && fieldsAre 0x1FFF 1 0xF 0xFF && fieldsAre 0x2000 2 0 0 && fieldsAre 0x3FFF 3 0xF 0xFF &&
     fieldsAre 0x4000 4 0 0 && fieldsAre 0x5FF0 5 0 0xF0 && fieldsAre 0x6FFF 6 0xF 0xFF && fieldsAre 0x7000 7 0 0 &&
     fieldsAre 0x8FF0 8 0 0xF0 && fieldsAre 0x8FF1 8 1 0xF1 && fieldsAre 0x8FF2 8 2 0xF2 && fieldsAre 0x8FF3 8 3 0xF3 &&
     fieldsAre 0x8FF4 8 4 0xF4 && fieldsAre 0x8FF5 8 5 0xF5 && fieldsAre 0x8FF6 8 6 0xF6 && fieldsAre 0x8FF7 8 7 0xF7 &&
     fieldsAre 0x8FFE 8 0xE 0xFE && fieldsAre 0x9FF0 9 0 0xF0 && fieldsAre 0xAFFF 0xA 0xF 0xFF &&
     fieldsAre 0xB000 0xB 0 0 && fieldsAre 0xCFFF 0xC 0xF 0xFF && fieldsAre 0xD000 0xD 0 0 &&
     fieldsAre 0xEF9E 0xE 0xE 0x9E && fieldsAre 0xEFA1 0xE 1 0xA1 && fieldsAre 0xFF07 0xF 7 0x07 &&
     fieldsAre 0xFF0A 0xF 0xA 0x0A && fieldsAre 0xFF15 0xF 5 0x15 && fieldsAre 0xFF18 0xF 8 0x18 &&
     fieldsAre 0xFF1E 0xF 0xE 0x1E && fieldsAre 0xFF29 0xF 9 0x29 && fieldsAre 0xFF33 0xF 3 0x33 &&
     fieldsAre 0xFF55 0xF 5 0x55 && fieldsAre 0xFF65 0xF 5 0x65) = true := by decide

/-- Both sides of IllegalWordsRejected occur, class by class. -/
theorem test_hyps_IllegalWordsRejected :
    IllegalWord 0x5001#16 ∧ IllegalWord 0x8008#16 ∧ IllegalWord 0x800F#16 ∧
    IllegalWord 0x9FFF#16 ∧ IllegalWord 0xE09D#16 ∧ IllegalWord 0xF066#16 ∧ ¬ IllegalWord 0x5000#16 ∧
    ¬ IllegalWord 0x800E#16 ∧ ¬ IllegalWord 0xE09E#16 ∧ ¬ IllegalWord 0xF065#16 := by
  unfold IllegalWord
  refine ⟨?_, ?_, ?_, ?_, ?_, ?_, ?_, ?_, ?_, ?_⟩ <;> decide

theorem test_hyps_FetchIsBigEndian : (readyAt 0xFFE 0x1234 0).pc.toNat ≤ 0xFFE := by decide

/-- The first and the last invocation of a frame, at the highest address a fetch accepts. -/
theorem test_hyps_StepRunsDecodedInstr :
    ((readyAt 0xFFE 0x1234 0).Fetching (0 : Fin 8) ∧ (readyAt 0xFFE 0x1234 7).Fetching (7 : Fin 8)) ∧
    (readyAt 0xFFE 0x1234 7).pc.toNat ≤ 0xFFE ∧ (Instr.op1NNN 0x234).wf = true ∧
    decode (wordAt (readyAt 0xFFE 0x1234 7).mem (readyAt 0xFFE 0x1234 7).pc.toNat) = .ok (.op1NNN 0x234) := by
  unfold State.Fetching; decide

theorem test_hyps_FetchOutOfRangeFaults : (readyAt 0xFFF 0x1234 7).Fetching (7 : Fin 8) ∧
    0xFFE < (readyAt 0xFFF 0x1234 7).pc.toNat := by
  unfold State.Fetching; decide

theorem test_hyps_IllegalWordFaults : (readyAt 0xFFE 0x8128 7).Fetching (7 : Fin 8) ∧
    (readyAt 0xFFE 0x8128 7).pc.toNat ≤ 0xFFE ∧
    IllegalWord (wordAt (readyAt 0xFFE 0x8128 7).mem (readyAt 0xFFE 0x8128 7).pc.toNat) := by
  unfold State.Fetching IllegalWord; decide

theorem test_hyps_HaltedCoreHasNoStep :
    ({ State.reset with halt := .faulted .stackUnderflow 0x00EE 0x0200 }).halt = .faulted .stackUnderflow 0x00EE 0x0200 ∧
    ({ State.reset with halt := .stopped }).halt = .stopped := by decide

/-- A state at a key-wait poll. -/
def polling (keys : Word) : State := { State.reset with keys := keys, mode := .awaitingKey 5, seq := inv 7 }

/-- No key; the lowest key alone; the highest alone. -/
theorem test_hyps_KeyWaitPollTakesLeastKey :
    ((polling 0).halt = .none ∧ (polling 0).seq = inv 7 ∧ (polling 0).mode = .awaitingKey 5 ∧ (polling 0).keys = 0) ∧
    ((polling 0xFFFF).keys.getLsbD 0 = true ∧ ∀ l < 0, (polling 0xFFFF).keys.getLsbD l = false) ∧
    ((polling 0x8000).keys.getLsbD 15 = true ∧ ∀ l < 15, (polling 0x8000).keys.getLsbD l = false) := by decide

theorem test_hyps_ClearRunFlagStops : ({ State.reset with runEn := port [false] }).halt = .none ∧
    ({ State.reset with runEn := port [false] }).seq = .frameStart ∧
    ({ State.reset with runEn := port [false] }).runEnSample = false := by decide

/-- The state at a frame start with the run flag set. -/
def running : State := { State.reset with runEn := port [true], keysIn := port [0x8001] }

theorem test_hyps_KeysSampledOnceAFrame : running.halt = .none ∧ running.seq = .frameStart ∧
    running.runEnSample = true ∧ (∃ t, step running = .next t) ∧ ∃ t, step (polling 0) = .next t :=
  ⟨rfl, rfl, rfl, ⟨_, rfl⟩, ⟨_, rfl⟩⟩

theorem test_hyps_TickDecrementsTimers : ({ State.reset with seq := .tick }).halt = .none ∧
    ({ State.reset with seq := .tick }).seq = .tick := by decide

theorem test_hyps_AudioGateFollowsSoundTimer : ({ State.reset with seq := .audioUpdate }).halt = .none ∧
    ({ State.reset with seq := .audioUpdate }).seq = .audioUpdate := by decide

theorem test_hyps_PresentChangesNothing :
    ({ State.reset with seq := .present }).presentPulse = true := by decide

/-- A step of each kind. -/
theorem test_hyps_EachStepWritesItsOwnState : (∃ t, step running = .next t) ∧
    (∃ t, step (readyAt 0x200 0xF015 0) = .next t) ∧ (∃ t, step { State.reset with seq := .tick } = .next t) ∧
    (∃ t, step { State.reset with seq := .audioUpdate } = .next t) ∧
    ∃ t, step { State.reset with seq := .present } = .next t :=
  ⟨⟨_, rfl⟩, ⟨_, rfl⟩, ⟨_, rfl⟩, ⟨_, rfl⟩, ⟨_, rfl⟩⟩

theorem test_hyps_FrameCompletesOrFaults : running.halt = .none ∧ running.seq = .frameStart ∧
    running.runEnSample = true := by decide

theorem test_hyps_EveryInstrAnswersNext : State.reset.halt = .none := by decide

/-- A state at both bounds of the invariant. -/
def atBounds : State := { State.reset with pc := 0x10FE, sp := 16, stack := Vector.replicate 16 0x1000, seq := .tick }

theorem test_hyps_StepKeepsStateBounds : atBounds.Inv ∧ ∃ t, step atBounds = .next t :=
  ⟨by unfold State.Inv; decide, _, rfl⟩

/-- One faulting instruction of each kind, at the boundary of its condition. -/
theorem test_hyps_FaultsArePrecise :
    (∃ t, exec (.op2NNN 0x300) { State.reset with sp := 16 } = .next t ∧ t.halt ≠ .none) ∧
    (∃ t, exec .op00EE State.reset = .next t ∧ t.halt ≠ .none) ∧
    (∃ t, exec (.opDXYN 0 0 1) { State.reset with i := 0x1000 } = .next t ∧ t.halt ≠ .none) ∧
    (∃ t, exec (.opFX33 0) { State.reset with i := 0xFFE } = .next t ∧ t.halt ≠ .none) ∧
    (∃ t, exec (.opFX55 0xF) { State.reset with i := 0xFF1 } = .next t ∧ t.halt ≠ .none) ∧
    (∃ t, exec (.opFX65 0) { State.reset with i := 0x1000 } = .next t ∧ t.halt ≠ .none) ∧
    (∃ t, exec (.opEX9E 1) (regs [(1, 0x10)]) = .next t ∧ t.halt ≠ .none) ∧
    (∃ t, exec (.opEXA1 1) (regs [(1, 0xFF)]) = .next t ∧ t.halt ≠ .none) ∧ State.reset.halt = .none :=
  ⟨⟨_, rfl, by decide⟩, ⟨_, rfl, by decide⟩, ⟨_, rfl, by decide⟩, ⟨_, rfl, by decide⟩, ⟨_, rfl, by decide⟩,
    ⟨_, rfl, by decide⟩, ⟨_, rfl, by decide⟩, ⟨_, rfl, by decide⟩, rfl⟩

/-- A register form, a storing form and a form that writes PC and the stack. -/
theorem test_hyps_InstrWritesOnlyItsOwn : (∃ t, exec (.op8XY4 0xF 0xF) State.reset = .next t) ∧
    (∃ t, exec (.opFX55 0xF) { State.reset with i := 0xFF0 } = .next t) ∧
    ∃ t, exec (.op2NNN 0xFFF) State.reset = .next t :=
  ⟨⟨_, rfl⟩, ⟨_, rfl⟩, ⟨_, rfl⟩⟩

/-- Each of the six flag writers, with the flag register as an operand. -/
theorem test_hyps_FlagIsZeroOrOne :
    ([Instr.op8XY4 0xF 1, .op8XY5 0xF 1, .op8XY6 0xF 1, .op8XY7 0xF 1, .op8XYE 0xF 1,
    .opDXYN 0xF 0xF 0xF].all fun i => nextIs (exec i State.reset) fun t => decide (t.halt = .none)) = true ∧
    State.reset.halt = .none := by decide

theorem test_hyps_NoInstrReadsSoundTimer : (∃ t, exec (.opFX07 0) State.reset = .next t) ∧
    (∀ x, Instr.opFX07 0 ≠ .opFX18 x) ∧ (∃ t, exec (.opFX18 0) State.reset = .next t) ∧
    ∃ x, Instr.opFX18 0 = .opFX18 x :=
  ⟨⟨_, rfl⟩, fun _ h => (by cases h), ⟨_, rfl⟩, ⟨0, rfl⟩⟩

theorem test_hyps_InputsReadOnlyWhereNamed : (∃ t, exec (.op6XNN 0 1) State.reset = .next t) ∧
    (∀ x, Instr.op6XNN 0 1 ≠ .opEX9E x ∧ Instr.op6XNN 0 1 ≠ .opEXA1 x) ∧ (∀ x nn, Instr.op6XNN 0 1 ≠ .opCXNN x nn) ∧
    Instr.op6XNN 0 1 ≠ .op00E0 ∧ ∀ x y n, Instr.op6XNN 0 1 ≠ .opDXYN x y n :=
  ⟨⟨_, rfl⟩, fun _ => ⟨fun h => (by cases h), fun h => (by cases h)⟩, fun _ _ h => (by cases h), fun h => (by cases h),
    fun _ _ _ h => (by cases h)⟩

/-- The highest and the lowest word of group 0, and PC = 0x1000. -/
theorem test_hyps_GroupZeroIsNoOperation :
    ((readyAt 0xFFE 0x0FFF 7).Fetching (7 : Fin 8) ∧ (readyAt 0xFFE 0x0FFF 7).pc.toNat ≤ 0xFFE ∧
      (wordAt (readyAt 0xFFE 0x0FFF 7).mem 0xFFE).toNat = 0x0FFF ∧ wordAt State.reset.mem 0x200 = 0x0000#16) ∧
    (readyAt 0x1000 0x0000 0).Fetching (0 : Fin 8) ∧ (readyAt 0x1000 0x0000 0).pc = 0x1000#16 := by
  unfold State.Fetching; decide

/-- One entry, sixteen entries, none; a popped 0x1000. -/
theorem test_hyps_ReturnPopsStack :
    0 < ({ State.reset with sp := 1 }).sp.val ∧ 0 < atBounds.sp.val ∧
    0xFFE < atBounds.stack[15].toNat ∧ State.reset.sp.val = 0 := by decide

theorem test_hyps_CallPushesReturnAddress :
    State.reset.sp.val < 16 ∧ ({ State.reset with sp := 15 }).sp.val < 16 ∧
    atBounds.sp.val = 16 := by decide

theorem test_hyps_ReturnUndoesCall : ({ State.reset with sp := 15 }).sp.val < 16 := by decide

theorem test_hyps_JumpIsAbsolute :
    ∃ t, exec (.op1NNN 0xFFF#12) State.reset = .next t ∧ 0xFFE < t.pc.toNat :=
  ⟨_, rfl, by decide⟩

theorem test_hyps_JumpPlusV0IsNotMasked : State.reset.getV 0x0 = 0 ∧
    ∃ t, exec (.opBNNN 0xFFF) (regs [(0, 0xFF)]) = .next t ∧ 0xFFE < t.pc.toNat :=
  ⟨rfl, _, rfl, by decide⟩

/-- Operands where carry and borrow change: 0xFF and 0x01, 0xFE and 0x01, equal operands; the flag register and another. -/
theorem test_hyps_AddAndSubtractWithFlag :
    ((regs [(1, 0xFF)]).getV 1).toNat = 255 ∧ ((regs [(2, 0x01)]).getV 2).toNat = 1 ∧
    ((regs [(1, 0xFE)]).getV 1).toNat = 254 ∧ ((regs [(1, 0x01)]).getV 1).toNat = 1 ∧ (1 : Nibble) ≠ 0xF := by decide

theorem test_hyps_ShiftsByOneWithFlag :
    ((regs [(1, 0x81)]).getV 1).toNat = 129 ∧ ((regs [(1, 0x7E)]).getV 1).toNat = 126 ∧
    (0 : Nibble) ≠ 0xF := by decide

/-- The last three bytes of memory. -/
theorem test_hyps_BcdStoresDigits : ({ State.reset with i := 0xFFD }).mem.wf = true ∧
    ((regs [(5, 0xFF)]).getV 5).toNat = 255 ∧ ({ State.reset with i := 0xFFD }).i.toNat + 2 ≤ 0xFFF := by decide

/-- All registers up to the last byte of memory; one register at the last byte. -/
theorem test_hyps_RegisterStore : ({ State.reset with i := 0xFF0 }).mem.wf = true ∧
    ({ State.reset with i := 0xFF0 }).i.toNat + (0xF : Nibble).toNat ≤ 0xFFF ∧
    ({ State.reset with i := 0xFFF }).i.toNat + (0x0 : Nibble).toNat ≤ 0xFFF := by decide

theorem test_hyps_RegisterLoad :
    ({ State.reset with i := 0xFF0 }).i.toNat + (0xF : Nibble).toNat ≤ 0xFFF ∧
    ({ State.reset with i := 0xFFF }).i.toNat + (0x0 : Nibble).toNat ≤ 0xFFF := by decide

/-- Each form one byte past the end, and far past it. -/
theorem test_hyps_DataRangeFaults : 0xFFF < ({ State.reset with i := 0xFFE }).i.toNat + 2 ∧
    0xFFF < ({ State.reset with i := 0xFF1 }).i.toNat + (0xF : Nibble).toNat ∧
    0 < (1 : Nibble).toNat ∧ 0xFFF < ({ State.reset with i := 0x1000 }).i.toNat + (1 : Nibble).toNat - 1 ∧
    0xFFF < ({ State.reset with i := 0xFFFF }).i.toNat + (0 : Nibble).toNat := by decide

theorem test_hyps_StoreSeenByNextFetch : ({ State.reset with i := 0xFF0 }).mem.wf = true ∧
    ({ State.reset with i := 0xFF0 }).i.toNat + (0xF : Nibble).toNat ≤ 0xFFF ∧
    (0xE : Nibble).toNat + 1 ≤ (0xF : Nibble).toNat := by decide

/-- No rows at any I; one row at the last byte; fifteen rows to it. -/
theorem test_hyps_DrawXorsFootprint :
    ((0 : Nibble) = 0 ∨ ({ State.reset with i := 0xFFFF }).i.toNat + 0 - 1 ≤ 0xFFF) ∧
    (({ State.reset with i := 0xFFF }).i.toNat + (1 : Nibble).toNat - 1 ≤ 0xFFF) ∧
    (({ State.reset with i := 0xFF1 }).i.toNat + (0xF : Nibble).toNat - 1 ≤ 0xFFF) := by decide

/-- The top left pixel lies in glyph 0's footprint at (0, 0), the one beside row 1's bit does not, and wrapped the corner
(0, 0) does for a sprite at (63, 31). -/
theorem test_hyps_DrawXorsFootprint_clauses :
    InFootprint [0xF0, 0x90] 0 0 0 0 ∧ InFootprint [0x40, 0x40] 63 31 0 0 ∧
    ¬ InFootprint [] 0 0 0 0 :=
  ⟨⟨0, 0, 0xF0, rfl, by decide⟩, ⟨1, 1, 0x40, rfl, by decide⟩, fun ⟨_, _, _, h, _⟩ => by simp at h⟩

/-- A cleared and a lit corner; the same registers again, and two others that hold the same; rows of zeros at 0x300. -/
theorem test_hyps_DrawTwiceRestores :
    (State.reset.halt = .none ∧ ∃ t, exec (.opDXYN 1 2 5) State.reset = .next t ∧ t.halt = .none ∧
      t.getV 3 = State.reset.getV 1 ∧ t.getV 4 = State.reset.getV 2 ∧ pixel State.reset.fb 0 0 = false ∧
      pixel t.fb 0 0 = true) ∧
    (∃ t, exec (.opDXYN 0 0 5) { State.reset with fb := togglePixel clearedFb 0 0 } = .next t ∧ t.halt = .none ∧
      pixel (togglePixel clearedFb 0 0) 0 0 = true ∧ pixel t.fb 0 0 = false) ∧
    ∀ k, k < (0xF : Nibble).toNat → ({ State.reset with i := 0x300 }).mem.read (0x300 + k) = 0 :=
  ⟨⟨rfl, _, rfl, by decide⟩, ⟨_, rfl, by decide⟩, by decide⟩

theorem test_hyps_KeySkips :
    ((regs [(1, 0x0F)]).getV 1).toNat ≤ 15 ∧ (State.reset.getV 1).toNat ≤ 15 := by decide

theorem test_hyps_KeyIndexFaults :
    15 < ((regs [(1, 0x10)]).getV 1).toNat ∧ 15 < ((regs [(1, 0xFF)]).getV 1).toNat := by
  decide

/-- The empty latch and the latch with one key. -/
theorem test_hyps_KeyWaitEntered :
    (0x0000#16 : Word) = 0 ∧ (0x8000#16 : Word) ≠ 0 := by decide

/-- The longest image that fits and the shortest that does not. -/
theorem test_hyps_RomLoadCopiesVerbatim :
    State.reset.mem.wf = true ∧ (List.replicate 0xE00 (0x12 : Byte)).length ≤ 0xE00 ∧
    0xE00 < (List.replicate 0xE01 (0x12 : Byte)).length ∧ (List.replicate 0xE01 (0x12 : Byte)).length < 65536 := by
  simp only [List.length_replicate]; decide

theorem test_hyps_TooLargeRomNeverRuns : 0xE00 < (List.replicate 0xE01 (0x12 : Byte)).length := by
  simp only [List.length_replicate]; decide

theorem test_hyps_ResetValues :
    ∃ t, t = State.hostReset atBounds ∧ 0x050 ≤ 0x050 ∧ 15 < 16 ∧ 4 < 5 := ⟨_, rfl, by decide⟩

theorem test_hyps_OutputsFollowState :
    State.reset.halt = .none ∧ ({ State.reset with halt := .stopped }).halt = .stopped ∧
    ({ State.reset with halt := .faulted .romTooLarge 0xE01 0x200 }).halt = .faulted .romTooLarge 0xE01 0x200 := by decide

end Sys2Proof.Tests
end

section
namespace Sys2Proof.Machine

/-! ### The word of two bytes (20_memory R61) -/

@[simp] theorem wordOfBytes_toNat (hi lo : Byte) : (wordOfBytes hi lo).toNat = hi.toNat * 256 + lo.toNat := by
  rw [wordOfBytes, BitVec.toNat_append, ← Nat.shiftLeft_add_eq_or_of_lt lo.isLt, Nat.shiftLeft_eq]

@[simp] theorem wordOfBytes_high (hi lo : Byte) : (wordOfBytes hi lo).extractLsb' 8 8 = hi :=
  BitVec.extractLsb'_append_eq_left

@[simp] theorem wordOfBytes_low (hi lo : Byte) : (wordOfBytes hi lo).extractLsb' 0 8 = lo :=
  BitVec.extractLsb'_append_eq_right

/-- Settles O6: below the fetch's bound the answer is the word of the two bytes at PC, and that word holds the byte at
the lower address in its high half. -/
theorem fetchIsBigEndian : Obligations.FetchIsBigEndian := by
  intro s hpc
  exact ⟨_, fetch_of_le hpc, wordOfBytes_toNat _ _, wordOfBytes_high _ _, wordOfBytes_low _ _⟩

end Sys2Proof.Machine
end

section
namespace Sys2Proof.Machine

/-! ### A step that fetches (40_step R121, R123) -/

/-- The answer of a step in which the execute stage answers `t`: the sequencer then moves on from `t`. -/
theorem step_of_execWord {s t : State} {k : Fin Config.cyclesPerFrame} (hs : s.Fetching k) (hpc : s.pc.toNat ≤ 0xFFE)
    (h : execWord (wordAt s.mem s.pc.toNat) s.advancePc = .next t) : step s = .next (finishInvoke k t) := by
  obtain ⟨hhalt, hseq, hmode⟩ := hs
  rw [wordAt] at h
  have hinv : invoke s = .next t := by simp only [invoke, hmode, fetch_of_le hpc, h]
  simp only [step, hhalt, seqStep, hseq, invokeStep, hinv]

/-- The answer of a step whose fetch fails: the fault, with PC as it was. -/
theorem step_of_fetch_fails {s : State} {k : Fin Config.cyclesPerFrame} (hs : s.Fetching k) (hpc : 0xFFE < s.pc.toNat) :
    step s = .next (s.setHalt (.faulted .addressOutOfRange s.pc s.pc)) := by
  obtain ⟨hhalt, hseq, hmode⟩ := hs
  have hinv : invoke s = .next (s.setHalt (.faulted .addressOutOfRange s.pc s.pc)) := by
    simp only [invoke, hmode, fetch_of_gt hpc, raiseAt_eq]
  simp only [step, hhalt, seqStep, hseq, invokeStep, hinv]
  rw [finishInvoke_of_ne (by simp)]

/-! ### Group 0 (30_encoding R95, R100) -/

/-- The words of group 0 are those up to 0x0FFF. -/
theorem opGroup_eq_zero {op : Word} (h : op.toNat ≤ 0x0FFF) : opGroup op = 0x0#4 := by
  apply BitVec.eq_of_toNat_eq
  simp only [opGroup, BitVec.extractLsb'_toNat, Nat.shiftRight_eq_div_pow, BitVec.toNat_ofNat]
  omega

/-- A word of group 0 that is neither 00E0 nor 00EE decodes to 0NNN. -/
theorem decode_group0_other {op : Word} (h : op.toNat ≤ 0x0FFF) (hE0 : op ≠ 0x00E0#16) (hEE : op ≠ 0x00EE#16) :
    decode op = .ok (.op0NNN (opNNN op)) := by
  simp [decode, opGroup_eq_zero h, decodeGroup0, hE0, hEE]

@[simp] theorem exec_op0NNN (nnn : Imm12) (s : State) : exec (.op0NNN nnn) s = .next s := rfl

/-- Settles O28: 0NNN answers its own state, so such a step is the fetch's PC + 2 and the sequencer's move; at 0x1000 the
fetch fails. -/
theorem groupZeroIsNoOperation : Obligations.GroupZeroIsNoOperation := by
  refine ⟨exec_op0NNN, fun s k hs hpc hop hE0 hEE => ?_, fun s k hs hpc => ?_⟩
  · have hexec : execWord (wordAt s.mem s.pc.toNat) s.advancePc = .next s.advancePc := by
      rw [execWord_of_ok (decode_group0_other hop hE0 hEE), exec_op0NNN]
    have hhalt : s.advancePc.halt = .none := (advancePc_halt s).trans hs.1
    rw [step_of_execWord hs hpc hexec, finishInvoke_of_none hhalt]
    rfl
  · exact ⟨_, _, _, step_of_fetch_fails hs (by simp [hpc]), rfl⟩

end Sys2Proof.Machine
end

section
namespace Sys2Proof.Machine

/-! ### The word of each format as a number (30_encoding R92) -/

theorem toNat_append_eq_add {v w : Nat} (a : BitVec v) (b : BitVec w) :
    (a ++ b).toNat = a.toNat * 2 ^ w + b.toNat := by
  rw [BitVec.toNat_append, ← Nat.shiftLeft_add_eq_or_of_lt b.isLt, Nat.shiftLeft_eq]

theorem formatNNN_toNat (g : Nibble) (nnn : Imm12) : (formatNNN g nnn).toNat = g.toNat * 4096 + nnn.toNat :=
  toNat_append_eq_add g nnn

theorem formatXNN_toNat (g x : Nibble) (nn : Byte) :
    (formatXNN g x nn).toNat = g.toNat * 4096 + x.toNat * 256 + nn.toNat := by
  simp only [formatXNN, toNat_append_eq_add]
  omega

theorem formatXYN_toNat (g x y n : Nibble) :
    (formatXYN g x y n).toNat = g.toNat * 4096 + x.toNat * 256 + y.toNat * 16 + n.toNat := by
  simp only [formatXYN, toNat_append_eq_add]
  omega

/-! ### Zero extension (30_encoding R93) -/

@[simp] theorem zext12_toNat (nnn : Imm12) : (zext12 nnn).toNat = nnn.toNat :=
  BitVec.toNat_setWidth_of_le (by decide)

@[simp] theorem zext8_toNat (b : Byte) : (zext8 b).toNat = b.toNat :=
  BitVec.toNat_setWidth_of_le (by decide)

end Sys2Proof.Machine
end

section
namespace Sys2Proof.Machine

/-! ### The key-wait poll (40_step R124) -/

/-- A poll that finds no key answers its own state. -/
theorem keyWaitPoll_of_no_key {s : State} (h : s.keys = 0) (t : Nibble) : keyWaitPoll t s = s := by
  rw [keyWaitPoll, leastKey_eq_none.2 h]

/-- A poll that finds a key writes the target and the mode. -/
theorem keyWaitPoll_of_leastKey {s : State} {j : Nat} (h : leastKey s.keys = some j) (t : Nibble) :
    keyWaitPoll t s = (s.setV t (BitVec.ofNat 8 j)).setMode .running := by
  rw [keyWaitPoll, h]

@[simp] theorem keyWaitPoll_halt (t : Nibble) (s : State) : (keyWaitPoll t s).halt = s.halt := by
  unfold keyWaitPoll
  split <;> rfl

/-- In mode AwaitingKey a step is the poll and the sequencer's move: there is no fetch. -/
theorem step_of_awaitingKey {s : State} {k : Fin Config.cyclesPerFrame} {t : Nibble} (hhalt : s.halt = .none)
    (hseq : s.seq = .invoke k) (hmode : s.mode = .awaitingKey t) :
    step s = .next ((keyWaitPoll t s).setSeq (Seq.afterInvoke k)) := by
  have hinv : invoke s = .next (keyWaitPoll t s) := by simp only [invoke, hmode]
  have hfin : finishInvoke k (keyWaitPoll t s) = (keyWaitPoll t s).setSeq (Seq.afterInvoke k) :=
    finishInvoke_of_none ((keyWaitPoll_halt t s).trans hhalt)
  simp only [step, hhalt, seqStep, hseq, invokeStep, hinv, hfin]

/-- Writing a register and the mode changes nothing else, wherever the sequencer goes. -/
theorem frame_setV_setMode (s : State) (t : Nibble) (b : Byte) (m : Mode) (q : Seq) :
    Frame (fun r => r = t) noAddr [.mode] (s.setSeq q) (((s.setV t b).setMode m).setSeq q) := by
  simp +contextual [Frame]

/-- Settles O11: the step is the poll, which answers its own state where the latch is empty and else writes the key that
`leastKey` finds. -/
theorem keyWaitPollTakesLeastKey : Obligations.KeyWaitPollTakesLeastKey := by
  intro s k t hhalt hseq hmode
  have hstep := step_of_awaitingKey hhalt hseq hmode
  refine ⟨fun hkeys => ?_, fun j hj hdown hleast => ?_⟩
  · rw [hstep, keyWaitPoll_of_no_key hkeys]
    rfl
  · rw [keyWaitPoll_of_leastKey (leastKey_eq_some.2 ⟨hj, hdown, hleast⟩)] at hstep
    refine ⟨_, hstep, ?_, rfl, frame_setV_setMode s t _ _ _⟩
    rw [setSeq_getV, setMode_getV, getV_setV_same, BitVec.toNat_ofNat, Nat.mod_eq_of_lt (by omega)]

end Sys2Proof.Machine
end

section
namespace Sys2Proof.Machine

/-! ### Return (40_step R131) -/

@[simp] theorem encode_op00EE : encode .op00EE = 0x00EE#16 := rfl

/-- 00EE with an entry held: the topmost entry goes to PC. -/
theorem exec_op00EE_of_pos {s : State} (h : 0 < s.sp.val) :
    exec .op00EE s =
      .next { s with sp := ⟨s.sp.val - 1, by omega⟩, pc := s.stack[s.sp.val - 1]'(by omega) } := by
  simp only [exec, exec00EE, pop_some h]

/-- 00EE with no entry held: the fault. -/
theorem exec_op00EE_of_zero {s : State} (h : s.sp.val = 0) :
    exec .op00EE s = .next (s.setHalt (.faulted .stackUnderflow 0x00EE#16 (s.pc - 2))) := by
  simp only [exec, exec00EE, pop_none (show ¬ 0 < s.sp.val by omega), raise_eq, encode_op00EE]

/-- Writing the stack and PC changes nothing else. -/
theorem frame_stack_pc (s : State) (stack : Vector Word 16) (sp : Fin 17) (a : Word) :
    Frame noReg noAddr [.pc, .stack] s { s with stack := stack, sp := sp, pc := a } := by
  simp [Frame, State.getV]

/-- Settles O29: the two answers of 00EE, by whether an entry is held. -/
theorem returnPopsStack : Obligations.ReturnPopsStack :=
  ⟨encode_op00EE, fun s =>
    ⟨fun h => ⟨_, exec_op00EE_of_pos h, rfl, rfl, rfl, fetch_of_gt, frame_stack_pc s _ _ _⟩,
      fun h => ⟨_, exec_op00EE_of_zero h⟩⟩⟩

end Sys2Proof.Machine
end

section
namespace Sys2Proof.Machine

/-! ### Jumps (40_step R132, R138) -/

@[simp] theorem exec_op1NNN (nnn : Imm12) (s : State) : exec (.op1NNN nnn) s = .next (s.setPc (zext12 nnn)) := rfl

@[simp] theorem exec_opBNNN (nnn : Imm12) (s : State) :
    exec (.opBNNN nnn) s = .next (s.setPc (zext12 nnn + zext8 (s.getV 0x0))) := rfl

/-- Writing PC changes nothing else. -/
theorem frame_setPc (s : State) (a : Word) : Frame noReg noAddr [.pc] s (s.setPc a) := by
  simp [Frame]

/-- Settles O32: PC becomes the target zero extended. -/
theorem jumpIsAbsolute : Obligations.JumpIsAbsolute := by
  intro nnn s
  refine ⟨formatNNN_toNat _ _, _, exec_op1NNN nnn s, zext12_toNat nnn, ?_, frame_setPc s _⟩
  rintro rfl
  exact fetch_of_gt (by simp)

/-- The sum of a 12-bit target and a byte fits in 16 bits (R138). -/
theorem zext12_add_zext8_toNat (nnn : Imm12) (b : Byte) :
    (zext12 nnn + zext8 b).toNat = nnn.toNat + b.toNat := by
  rw [BitVec.toNat_add_of_lt, zext12_toNat, zext8_toNat]
  rw [zext12_toNat, zext8_toNat]
  omega

/-- Settles O33: the sum does not wrap, so it is at most 0xFFF + 0xFF, and nothing is masked. -/
theorem jumpPlusV0IsNotMasked : Obligations.JumpPlusV0IsNotMasked := by
  intro nnn s
  have hpc := zext12_add_zext8_toNat nnn (s.getV 0x0)
  refine ⟨formatNNN_toNat _ _, fun hV0 => ?_, _, exec_opBNNN nnn s, hpc, ?_, fetch_of_gt, frame_setPc s _⟩
  · have hzero : zext12 nnn + zext8 (s.getV 0x0) = zext12 nnn := by
      apply BitVec.eq_of_toNat_eq
      rw [hpc, hV0, zext12_toNat]
      rfl
    rw [exec_opBNNN, exec_op1NNN, hzero]
  · rw [setPc_pc, hpc]
    omega

end Sys2Proof.Machine
end

section
namespace Sys2Proof.Machine

/-! ### Conditional skips (40_step R134 to R137, R139) -/

/-- A skip under `p` adds 2 to PC exactly where `p` holds. -/
theorem skipIf_decide (p : Prop) [Decidable p] (s : State) :
    skipIf (decide p) s = .next (if p then { s with pc := s.pc + 2 } else s) := by
  simp only [skipIf_eq, decide_eq_true_eq]
  rfl

/-- A skip under `¬ p` adds 2 to PC exactly where `p` fails. -/
theorem skipIf_decide_not (p : Prop) [Decidable p] (s : State) :
    skipIf (decide ¬ p) s = .next (if p then s else { s with pc := s.pc + 2 }) := by
  rw [skipIf_decide, ite_not]

theorem exec_op3XNN (x : Nibble) (nn : Byte) (s : State) :
    exec (.op3XNN x nn) s = .next (if s.getV x = nn then { s with pc := s.pc + 2 } else s) := skipIf_decide _ s

theorem exec_op4XNN (x : Nibble) (nn : Byte) (s : State) :
    exec (.op4XNN x nn) s = .next (if s.getV x = nn then s else { s with pc := s.pc + 2 }) := skipIf_decide_not _ s

theorem exec_op5XY0 (x y : Nibble) (s : State) :
    exec (.op5XY0 x y) s = .next (if s.getV x = s.getV y then { s with pc := s.pc + 2 } else s) := skipIf_decide _ s

theorem exec_op9XY0 (x y : Nibble) (s : State) :
    exec (.op9XY0 x y) s = .next (if s.getV x = s.getV y then s else { s with pc := s.pc + 2 }) :=
  skipIf_decide_not _ s

/-- Settles O34: each skip's word and answer; with `x` = `y` the compared values are equal. -/
theorem conditionalSkips : Obligations.ConditionalSkips := by
  intro x y nn s
  refine ⟨formatXNN_toNat _ _ _, formatXNN_toNat _ _ _, formatXYN_toNat _ _ _ _, formatXYN_toNat _ _ _ _,
    exec_op3XNN x nn s, exec_op4XNN x nn s, exec_op5XY0 x y s, exec_op9XY0 x y s, ?_, ?_⟩
  · rw [exec_op5XY0, if_pos rfl]
  · rw [exec_op9XY0, if_pos rfl]

end Sys2Proof.Machine
end

section
namespace Sys2Proof.Machine

/-! ### Load, add and copy (41_alu R150 to R152) -/

@[simp] theorem exec_op6XNN (x : Nibble) (nn : Byte) (s : State) : exec (.op6XNN x nn) s = .next (s.setV x nn) := rfl

@[simp] theorem exec_op7XNN (x : Nibble) (nn : Byte) (s : State) :
    exec (.op7XNN x nn) s = .next (s.setV x (s.getV x + nn)) := rfl

@[simp] theorem exec_op8XY0 (x y : Nibble) (s : State) : exec (.op8XY0 x y) s = .next (s.setV x (s.getV y)) := rfl

/-- Writing a register changes nothing else. -/
theorem frame_setV (s : State) (x : Nibble) (b : Byte) : Frame (fun r => r = x) noAddr [] s (s.setV x b) := by
  simp +contextual [Frame]

/-- Settles O35: each answer is one register write; the sum of two bytes is the one that wraps at 256. -/
theorem immediateLoadAndAdd : Obligations.ImmediateLoadAndAdd := by
  intro x nn s
  refine ⟨formatXNN_toNat _ _ _, formatXNN_toNat _ _ _,
    ⟨_, exec_op6XNN x nn s, getV_setV_same s x nn, frame_setV s x nn⟩,
    _, exec_op7XNN x nn s, ?_, frame_setV s x _⟩
  rw [getV_setV_same, BitVec.toNat_add]

/-- Settles O36: the answer is one register write of the other register's value. -/
theorem registerCopy : Obligations.RegisterCopy := fun x y s =>
  ⟨formatXYN_toNat _ _ _ _, _, exec_op8XY0 x y s, getV_setV_same s x _, frame_setV s x _⟩

end Sys2Proof.Machine
end

section
namespace Sys2Proof.Machine

/-! ### Loads of the index register (42_index R180, R182) -/

@[simp] theorem exec_opANNN (nnn : Imm12) (s : State) : exec (.opANNN nnn) s = .next (s.setI (zext12 nnn)) := rfl

@[simp] theorem exec_opFX29 (x : Nibble) (s : State) : exec (.opFX29 x) s = .next (s.setI (zext8 (s.getV x) * 5)) := rfl

/-- Writing I changes nothing else. -/
theorem frame_setI (s : State) (a : Word) : Frame noReg noAddr [.index] s (s.setI a) := by
  simp [Frame]

/-- Five times a byte fits in 16 bits (R182). -/
theorem zext8_mul_five_toNat (b : Byte) : (zext8 b * 5).toNat = b.toNat * 5 := by
  have hfits : b.toNat * 5 < 2 ^ 16 := by omega
  rw [BitVec.toNat_mul, zext8_toNat]
  exact Nat.mod_eq_of_lt hfits

/-- Settles O41: each answer is one write of I, and neither the extension nor the product drops a bit. -/
theorem indexLoads : Obligations.IndexLoads :=
  ⟨fun nnn s => ⟨formatNNN_toNat _ _, _, exec_opANNN nnn s, zext12_toNat nnn, frame_setI s _⟩,
    fun x s => ⟨(formatXNN_toNat _ _ _).trans (Nat.add_right_comm _ _ _),
      _, exec_opFX29 x s, zext8_mul_five_toNat (s.getV x), frame_setI s _⟩⟩

end Sys2Proof.Machine
end

section
namespace Sys2Proof.Machine

/-! ### Clear (43_display R200) -/

@[simp] theorem encode_op00E0 : encode .op00E0 = 0x00E0#16 := rfl

@[simp] theorem exec_op00E0 (s : State) : exec .op00E0 s = .next (s.setFb clearedFb) := rfl

/-- Writing the framebuffer changes nothing else. -/
theorem frame_setFb (s : State) (f : FrameBuffer) : Frame noReg noAddr [.display] s (s.setFb f) := by
  simp [Frame]

/-- Settles O48: the answer is one write of the framebuffer, with the one whose pixels are all off. -/
theorem clearTurnsEveryPixelOff : Obligations.ClearTurnsEveryPixelOff :=
  ⟨encode_op00E0, fun s => ⟨_, exec_op00E0 s, pixel_clearedFb, frame_setFb s clearedFb⟩⟩

end Sys2Proof.Machine
end

section
namespace Sys2Proof.Machine

/-! ### The footprint (43_display R201, R205) -/

theorem byte_ne_zero_iff (b : Byte) : b ≠ 0 ↔ ∃ j, j < 8 ∧ b.getLsbD (7 - j) = true := by
  constructor
  · intro hb
    by_contra! hoff
    refine hb (BitVec.eq_of_getLsbD_eq fun i hi => ?_)
    have hbit := hoff (7 - i) (by omega)
    rw [show 7 - (7 - i) = i by omega] at hbit
    simpa using hbit
  · rintro ⟨j, -, hbit⟩ rfl
    simp at hbit

/-- A sprite has a footprint exactly where one of its rows has a 1 bit. -/
theorem exists_inFootprint_iff (bytes : List Byte) (x0 y0 : Nat) :
    (∃ r c, InFootprint bytes x0 y0 r c) ↔ ∃ (k : Nat) (b : Byte), bytes[k]? = some b ∧ b ≠ 0 := by
  simp only [byte_ne_zero_iff]
  constructor
  · rintro ⟨r, c, k, j, b, hb, hj, hbit, -, -⟩
    exact ⟨k, b, hb, j, hj, hbit⟩
  · rintro ⟨k, b, hb, j, hj, hbit⟩
    exact ⟨spriteRow y0 k, spriteCol x0 j, k, j, b, hb, hj, hbit, rfl, rfl⟩

/-! ### One draw and two (43_display R205, R206) -/

section
variable {bytes : List Byte} (x0 y0 : Nat) (fb : FrameBuffer) (hl : bytes.length ≤ 32)
include hl

/-- A draw inverts exactly the pixels of its footprint. -/
theorem pixel_drawSprite_eq_not_iff (r : Fin 32) (c : Fin 64) :
    pixel (drawSprite bytes x0 y0 fb).1 r c = !pixel fb r c ↔ InFootprint bytes x0 y0 r c := by
  obtain ⟨hin, hout, -⟩ := drawSprite_spec bytes x0 y0 fb hl
  refine ⟨fun h => ?_, hin r c⟩
  by_contra hnot
  simp [hout r c hnot] at h

/-- A collision is an on pixel turned off. -/
theorem drawSprite_collision_iff :
    (drawSprite bytes x0 y0 fb).2 = true ↔
      ∃ r c, pixel fb r c = true ∧ pixel (drawSprite bytes x0 y0 fb).1 r c = false := by
  obtain ⟨-, -, hcollision⟩ := drawSprite_spec bytes x0 y0 fb hl
  rw [hcollision]
  refine exists₂_congr fun r c => ?_
  rw [← pixel_drawSprite_eq_not_iff x0 y0 fb hl, and_comm]
  exact and_congr_right fun hon => by rw [hon, Bool.not_true]

/-- A sprite without a footprint draws nothing. -/
theorem drawSprite_fb_of_no_footprint (h : ¬ ∃ r c, InFootprint bytes x0 y0 r c) :
    (drawSprite bytes x0 y0 fb).1 = fb := by
  obtain ⟨-, hout, -⟩ := drawSprite_spec bytes x0 y0 fb hl
  exact fb_ext _ _ fun r c => hout r c fun hin => h ⟨r, c, hin⟩

/-- A second draw of the same sprite at the same place undoes the first: each pixel of the footprint is inverted twice. -/
theorem drawSprite_drawSprite_fb :
    (drawSprite bytes x0 y0 (drawSprite bytes x0 y0 fb).1).1 = fb := by
  obtain ⟨hin, hout, -⟩ := drawSprite_spec bytes x0 y0 fb hl
  obtain ⟨hin', hout', -⟩ := drawSprite_spec bytes x0 y0 (drawSprite bytes x0 y0 fb).1 hl
  apply fb_ext
  intro r c
  by_cases h : InFootprint bytes x0 y0 r c
  · rw [hin' r c h, hin r c h, Bool.not_not]
  · rw [hout' r c h, hout r c h]

end

end Sys2Proof.Machine
end

section
namespace Sys2Proof.Machine

/-! ### `drawFromI` (43_display R202, R207) -/

theorem flagByte_eq_one_iff (f : Bool) : flagByte f = 0x01 ↔ f = true := by
  cases f <;> decide

theorem flagByte_eq_zero_iff (f : Bool) : flagByte f = 0x00 ↔ ¬ f = true := by
  cases f <;> decide

/-- The sprite of `n` rows that lies at `I`. -/
def State.sprite (s : State) (n : Nibble) : List Byte := spriteBytes s.mem (s.dataAddr 0) n.toNat

theorem sprite_length_le (s : State) (n : Nibble) : (s.sprite n).length ≤ 32 := by
  rw [State.sprite, spriteBytes_length]
  omega

theorem exists_inFootprint_sprite_iff (s : State) (n : Nibble) (x0 y0 : Nat) :
    (∃ r c, InFootprint (s.sprite n) x0 y0 r c) ↔ ∃ k, k < n.toNat ∧ s.mem.read (s.i.toNat + k) ≠ 0 := by
  simp [exists_inFootprint_iff, State.sprite, getElem?_spriteBytes, State.dataAddr]

section
variable (x y n : Nibble) (s : State)

theorem drawFromI_fb :
    (drawFromI x y n s).fb = (drawSprite (s.sprite n) (s.getV x).toNat (s.getV y).toNat s.fb).1 := rfl

theorem drawFromI_getV_flagReg :
    (drawFromI x y n s).getV flagReg =
      flagByte (drawSprite (s.sprite n) (s.getV x).toNat (s.getV y).toNat s.fb).2 := getV_setV_same ..

@[simp] theorem sprite_drawFromI (n' : Nibble) : (drawFromI x y n s).sprite n' = s.sprite n' := rfl

/-- VF is 1 exactly where the draw turns an on pixel off. -/
theorem drawFromI_flag_eq_one_iff :
    (drawFromI x y n s).getV flagReg = 0x01 ↔
      ∃ r c, pixel s.fb r c = true ∧ pixel (drawFromI x y n s).fb r c = false := by
  rw [drawFromI_getV_flagReg, flagByte_eq_one_iff, drawSprite_collision_iff _ _ _ (sprite_length_le s n), drawFromI_fb]

/-- Else VF is 0. -/
theorem drawFromI_flag_eq_zero_iff :
    (drawFromI x y n s).getV flagReg = 0x00 ↔
      ¬ ∃ r c, pixel s.fb r c = true ∧ pixel (drawFromI x y n s).fb r c = false := by
  rw [← drawFromI_flag_eq_one_iff, drawFromI_getV_flagReg, flagByte_eq_one_iff, flagByte_eq_zero_iff]

variable {x y n s}

/-- Rows of 0 bits change no pixel and do not collide. -/
theorem drawFromI_of_zero_rows (h : ∀ k, k < n.toNat → s.mem.read (s.i.toNat + k) = 0) :
    (drawFromI x y n s).fb = s.fb ∧ (drawFromI x y n s).getV flagReg = 0x00 := by
  have hfb : (drawFromI x y n s).fb = s.fb := by
    rw [drawFromI_fb]
    refine drawSprite_fb_of_no_footprint _ _ _ (sprite_length_le s n) ?_
    rw [exists_inFootprint_sprite_iff]
    exact fun ⟨k, hk, hne⟩ => hne (h k hk)
  refine ⟨hfb, ?_⟩
  rw [drawFromI_flag_eq_zero_iff, hfb]
  rintro ⟨r, c, hon, hoff⟩
  simp [hon] at hoff

/-- On a cleared screen a draw turns a pixel on exactly where the sprite has a 1 bit. -/
theorem drawFromI_turns_on_iff (hclear : ∀ r c, pixel s.fb r c = false) :
    (∃ r c, pixel s.fb r c = false ∧ pixel (drawFromI x y n s).fb r c = true) ↔
      ∃ k, k < n.toNat ∧ s.mem.read (s.i.toNat + k) ≠ 0 := by
  rw [← exists_inFootprint_sprite_iff s n (s.getV x).toNat (s.getV y).toNat]
  refine exists₂_congr fun r c => ?_
  rw [← pixel_drawSprite_eq_not_iff _ _ s.fb (sprite_length_le s n), ← drawFromI_fb, hclear r c, Bool.not_false]
  exact and_iff_right rfl

/-- A second draw of the same height at the same coordinates undoes the first, whichever registers name them. -/
theorem drawFromI_drawFromI_fb {x' y' : Nibble} (hx : (drawFromI x y n s).getV x' = s.getV x)
    (hy : (drawFromI x y n s).getV y' = s.getV y) : (drawFromI x' y' n (drawFromI x y n s)).fb = s.fb := by
  rw [drawFromI_fb, hx, hy, sprite_drawFromI, drawFromI_fb, drawSprite_drawSprite_fb _ _ _ (sprite_length_le s n)]

end

/-! ### DXYN (43_display R202, R206) -/

theorem exec_opDXYN_zero (x y : Nibble) (s : State) : exec (.opDXYN x y 0) s = .next (drawFromI x y 0 s) := rfl

theorem exec_opDXYN_of_ne (x y : Nibble) {n : Nibble} (hn : n ≠ 0) (s : State) :
    exec (.opDXYN x y n) s = withLastAddr (s.dataAddr (n.toNat - 1)) (fun s => .next (drawFromI x y n s)) s :=
  if_neg hn

/-- DXYN with its whole sprite in memory, or of no rows, draws it. -/
theorem exec_opDXYN_of_fits (x y : Nibble) {n : Nibble} {s : State}
    (h : n = 0 ∨ s.i.toNat + n.toNat - 1 ≤ 0xFFF) : exec (.opDXYN x y n) s = .next (drawFromI x y n s) := by
  by_cases hn : n = 0
  · rw [hn, exec_opDXYN_zero]
  · have hrows : n.toNat ≠ 0 := fun hzero => hn (BitVec.eq_of_toNat_eq hzero)
    have hbound := h.resolve_left hn
    have hlast : s.dataAddr (n.toNat - 1) < 0x1000 := by
      rw [State.dataAddr]
      omega
    rw [exec_opDXYN_of_ne x y hn, withLastAddr_of_lt hlast]

/-- A DXYN that leaves the core running had its sprite in memory, and drew it. -/
theorem exec_opDXYN_not_halted {x y n : Nibble} {s t : State} (h : exec (.opDXYN x y n) s = .next t)
    (hhalt : t.halt = .none) : (n = 0 ∨ s.i.toNat + n.toNat - 1 ≤ 0xFFF) ∧ t = drawFromI x y n s := by
  have hfits : n = 0 ∨ s.i.toNat + n.toNat - 1 ≤ 0xFFF := by
    refine or_iff_not_imp_left.2 fun hn => ?_
    rw [exec_opDXYN_of_ne x y hn] at h
    obtain ⟨hlast, -⟩ | ⟨-, rfl⟩ := withLastAddr_cases h
    · rw [State.dataAddr] at hlast
      omega
    · simp at hhalt
  rw [exec_opDXYN_of_fits x y hfits] at h
  injection h with h
  exact ⟨hfits, h.symm⟩

/-- Settles O50: both draws are `drawFromI`; the second restores the framebuffer, so the pixels it turns off are those the
first turned on. -/
theorem drawTwiceRestores : Obligations.DrawTwiceRestores := by
  intro x y x' y' n s t _ hexec hhalt
  obtain ⟨hfits, rfl⟩ := exec_opDXYN_not_halted hexec hhalt
  refine ⟨(drawFromI_flag_eq_one_iff x y n s).2, (drawFromI_flag_eq_zero_iff x y n s).2, drawFromI_of_zero_rows,
    fun hx hy => ?_⟩
  have hfb := drawFromI_drawFromI_fb hx hy
  have hone := drawFromI_flag_eq_one_iff x' y' n (drawFromI x y n s)
  have hzero := drawFromI_flag_eq_zero_iff x' y' n (drawFromI x y n s)
  simp only [hfb, and_comm] at hone hzero
  exact ⟨_, exec_opDXYN_of_fits x' y' hfits, hfb, hone.2, hzero.2,
    fun hclear => hone.trans (drawFromI_turns_on_iff hclear)⟩

end Sys2Proof.Machine
end

section
namespace Sys2Proof.Machine

/-! ### FX0A and the poll after it (44_keypad_and_timers R226, 40_step R124) -/

@[simp] theorem exec_opFX0A (x : Nibble) (s : State) :
    exec (.opFX0A x) s = .next (s.setMode (.awaitingKey x)) := rfl

/-- Writing the mode changes nothing else. -/
theorem frame_setMode (s : State) (m : Mode) : Frame noReg noAddr [.mode] s (s.setMode m) := by
  simp [Frame]

/-- In mode AwaitingKey an invocation is a poll. -/
theorem invoke_of_awaitingKey {s : State} {t : Nibble} (h : s.mode = .awaitingKey t) :
    invoke s = .next (keyWaitPoll t s) := by
  rw [invoke, h]

/-- No poll moves PC. -/
@[simp] theorem keyWaitPoll_pc (t : Nibble) (s : State) : (keyWaitPoll t s).pc = s.pc := by
  unfold keyWaitPoll
  split <;> rfl

/-- A poll of a latch that is not empty ends the wait. -/
theorem keyWaitPoll_mode_of_keys_ne_zero {s : State} (h : s.keys ≠ 0) (t : Nibble) :
    (keyWaitPoll t s).mode = .running := by
  obtain ⟨j, hj⟩ := Option.ne_none_iff_exists'.1 (mt leastKey_eq_none.1 h)
  rw [keyWaitPoll_of_leastKey hj, setMode_mode]

/-- Settles O54: FX0A is one write of the mode, which commutes with a write of the latch; the invocation after it is the
poll. -/
theorem keyWaitEntered : Obligations.KeyWaitEntered := by
  intro x s
  refine ⟨(formatXNN_toNat _ _ _).trans (Nat.add_right_comm _ _ _), _, exec_opFX0A x s, setMode_mode s _,
    frame_setMode s _, fun k => ⟨exec_opFX0A x _, _, invoke_of_awaitingKey (setMode_mode s _), ?_, ?_, ?_⟩⟩
  · exact keyWaitPoll_pc x _
  · exact fun hempty => keyWaitPoll_of_no_key hempty x
  · exact fun hpressed => keyWaitPoll_mode_of_keys_ne_zero hpressed x

end Sys2Proof.Machine
end

section
namespace Sys2Proof.Machine

/-! ### The ROM load (70_reset R283) -/

/-- An image that fits is copied from 0x200 up. -/
theorem loadRom_of_le {rom : List Byte} (h : rom.length ≤ 0xE00) (s : State) :
    s.loadRom rom = s.setMem (copyBytes s.mem 0x200 rom) :=
  if_pos h

/-- An image that does not fit leaves the RomTooLarge fault. -/
theorem loadRom_of_gt {rom : List Byte} (h : 0xE00 < rom.length) (s : State) :
    s.loadRom rom = s.setHalt (.faulted .romTooLarge (BitVec.ofNat 16 rom.length) s.pc) :=
  if_neg (Nat.not_le.2 h)

/-- Settles O55: an image that fits is one write of the memory by `copyBytes`, whose reads inside and outside the image
are known; a longer one is one write of HALT. -/
theorem romLoadCopiesVerbatim : Obligations.RomLoadCopiesVerbatim := by
  intro rom s hwf
  constructor
  · intro hfits
    rw [loadRom_of_le hfits, setMem_mem]
    have hend : 0x200 + rom.length ≤ 0x1000 := by omega
    exact ⟨rfl, fun k => read_copyBytes_inside k rom s.mem 0x200 hwf hend,
      fun a hout => read_copyBytes_outside a rom s.mem 0x200 (by omega)⟩
  · intro hlarge
    exact ⟨_, _, loadRom_of_gt hlarge s,
      fun hlt => (BitVec.toNat_ofNat _ _).trans (Nat.mod_eq_of_lt hlt)⟩

end Sys2Proof.Machine
end

section
namespace Sys2Proof.Machine

/-! ### The fields of a word, by division (30_encoding R91) -/

theorem opGroup_toNat (op : Word) : (opGroup op).toNat = op.toNat / 4096 := by
  rw [opGroup, BitVec.extractLsb'_toNat, Nat.shiftRight_eq_div_pow]
  omega

theorem opX_eq (op : Word) : opX op = BitVec.ofNat 4 (op.toNat / 256) := by
  apply BitVec.eq_of_toNat_eq
  rw [opX, BitVec.extractLsb'_toNat, Nat.shiftRight_eq_div_pow, BitVec.toNat_ofNat]

theorem opY_eq (op : Word) : opY op = BitVec.ofNat 4 (op.toNat / 16) := by
  apply BitVec.eq_of_toNat_eq
  rw [opY, BitVec.extractLsb'_toNat, Nat.shiftRight_eq_div_pow, BitVec.toNat_ofNat]

theorem opN_toNat (op : Word) : (opN op).toNat = op.toNat % 16 := by
  simp [opN]

theorem opNN_toNat (op : Word) : (opNN op).toNat = op.toNat % 256 := by
  simp [opNN]

theorem opNNN_eq (op : Word) : opNNN op = BitVec.ofNat 12 op.toNat := by
  apply BitVec.eq_of_toNat_eq
  simp [opNNN]

/-- A field is known from its value. -/
theorem opGroup_eq_iff {op : Word} {g : Nibble} : opGroup op = g ↔ op.toNat / 4096 = g.toNat := by
  rw [← BitVec.toNat_inj, opGroup_toNat]

theorem opN_eq_iff {op : Word} {n : Nibble} : opN op = n ↔ op.toNat % 16 = n.toNat := by
  rw [← BitVec.toNat_inj, opN_toNat]

theorem opNN_eq_iff {op : Word} {b : Byte} : opNN op = b ↔ op.toNat % 256 = b.toNat := by
  rw [← BitVec.toNat_inj, opNN_toNat]

/-! ### The fields of a format (30_encoding R92) -/

@[simp] theorem opGroup_formatNNN (g : Nibble) (nnn : Imm12) : opGroup (formatNNN g nnn) = g :=
  BitVec.extractLsb'_append_eq_left

@[simp] theorem opNNN_formatNNN (g : Nibble) (nnn : Imm12) : opNNN (formatNNN g nnn) = nnn :=
  BitVec.extractLsb'_append_eq_right

@[simp] theorem opGroup_formatXNN (g x : Nibble) (nn : Byte) : opGroup (formatXNN g x nn) = g := by
  rw [opGroup_eq_iff, formatXNN_toNat]
  omega

@[simp] theorem opX_formatXNN (g x : Nibble) (nn : Byte) : opX (formatXNN g x nn) = x := by
  apply BitVec.eq_of_toNat_eq
  rw [opX_eq, formatXNN_toNat, BitVec.toNat_ofNat]
  omega

@[simp] theorem opNN_formatXNN (g x : Nibble) (nn : Byte) : opNN (formatXNN g x nn) = nn :=
  BitVec.extractLsb'_append_eq_right

@[simp] theorem opGroup_formatXYN (g x y n : Nibble) : opGroup (formatXYN g x y n) = g := by
  rw [opGroup_eq_iff, formatXYN_toNat]
  omega

@[simp] theorem opX_formatXYN (g x y n : Nibble) : opX (formatXYN g x y n) = x := by
  apply BitVec.eq_of_toNat_eq
  rw [opX_eq, formatXYN_toNat, BitVec.toNat_ofNat]
  omega

@[simp] theorem opY_formatXYN (g x y n : Nibble) : opY (formatXYN g x y n) = y := by
  apply BitVec.eq_of_toNat_eq
  rw [opY_eq, formatXYN_toNat, BitVec.toNat_ofNat]
  omega

@[simp] theorem opN_formatXYN (g x y n : Nibble) : opN (formatXYN g x y n) = n :=
  BitVec.extractLsb'_append_eq_right

/-! ### A word is its fields: no bit is dropped (30_encoding R92) -/

theorem formatNNN_fields {op : Word} {g : Nibble} (h : opGroup op = g) : formatNNN g (opNNN op) = op := by
  apply BitVec.eq_of_toNat_eq
  rw [formatNNN_toNat, opNNN_eq, BitVec.toNat_ofNat, ← opGroup_eq_iff.1 h]
  omega

theorem formatXNN_fields {op : Word} {g : Nibble} {nn : Byte} (h : opGroup op = g) (hn : opNN op = nn) :
    formatXNN g (opX op) nn = op := by
  apply BitVec.eq_of_toNat_eq
  rw [formatXNN_toNat, opX_eq, BitVec.toNat_ofNat, ← opGroup_eq_iff.1 h, ← opNN_eq_iff.1 hn]
  omega

theorem formatXYN_fields {op : Word} {g n : Nibble} (h : opGroup op = g) (hn : opN op = n) :
    formatXYN g (opX op) (opY op) n = op := by
  apply BitVec.eq_of_toNat_eq
  rw [formatXYN_toNat, opX_eq, opY_eq, BitVec.toNat_ofNat, BitVec.toNat_ofNat, ← opGroup_eq_iff.1 h,
    ← opN_eq_iff.1 hn]
  omega

end Sys2Proof.Machine
end

section
namespace Sys2Proof.Machine

/-! ### Decode of encode (30_encoding sections 2 and 3) -/

/-- The decoder reads each format's fields back; only group 0 has words that two patterns match. -/
theorem decode_encode (i : Instr) (h : i.wf = true) : decode (encode i) = .ok i := by
  cases i with
  | op00E0 | op00EE => rfl
  | op0NNN nnn =>
    obtain ⟨hE0, hEE⟩ : nnn ≠ 0x0E0#12 ∧ nnn ≠ 0x0EE#12 := by simpa [Instr.wf] using h
    have hword : ∀ {imm}, nnn ≠ imm → formatNNN 0x0#4 nnn ≠ formatNNN 0x0#4 imm := fun hne heq =>
      hne (by rw [← opNNN_formatNNN 0x0#4 nnn, heq, opNNN_formatNNN])
    have hgroup : (formatNNN 0x0#4 nnn).toNat ≤ 0x0FFF := by
      rw [formatNNN_toNat, BitVec.toNat_ofNat]
      omega
    exact (decode_group0_other hgroup (hword hE0) (hword hEE)).trans (by rw [opNNN_formatNNN])
  | _ => simp [encode, decode, decodeGroup8, decodeGroupE, decodeGroupF]

/-- The bytes of a word, high byte first, make the word again. -/
theorem wordOfBytes_halves (op : Word) : wordOfBytes (op.extractLsb' 8 8) (op.extractLsb' 0 8) = op := by
  apply BitVec.eq_of_toNat_eq
  simp only [wordOfBytes_toNat, BitVec.extractLsb'_toNat, Nat.shiftRight_eq_div_pow]
  omega

theorem decodeBytes_bytesOfWord {op : Word} {i : Instr} (h : decode op = .ok i) (rest : List Byte) :
    decodeBytes (bytesOfWord op ++ rest) = .ok (i, rest) := by
  simp [bytesOfWord, decodeBytes, wordOfBytes_halves, h]

/-- Settles O1: the decoder reads each format's fields back, and the two bytes make the same word. -/
theorem decodeEncodeRoundTrip : Obligations.DecodeEncodeRoundTrip := fun i rest hwf =>
  ⟨decode_encode i hwf, decodeBytes_bytesOfWord (decode_encode i hwf) rest⟩

/-- Settles O5: each word is the encoding of its instruction, which decodes to it. -/
theorem writtenOutWordsDecode : Obligations.WrittenOutWordsDecode :=
  ⟨decode_encode .op00E0 rfl, decode_encode (.op0NNN 0x123) rfl, decode_encode (.op2NNN 0x300) rfl,
    decode_encode (.op6XNN 0xA 0x05) rfl, decode_encode (.op8XY7 0x1 0x2) rfl, decode_encode (.opANNN 0x210) rfl,
    decode_encode (.opCXNN 0x3 0x0F) rfl, decode_encode (.opDXYN 0x0 0x1 0x5) rfl, decode_encode (.opEXA1 0x1) rfl,
    decode_encode (.opFX33 0x5) rfl⟩

end Sys2Proof.Machine
end

section
namespace Sys2Proof.Machine

/-! ### Encode of decode (30_encoding section 3): what each group's decoder answers encodes to the word -/

/-- The instruction is well-formed and its word is `op`. -/
def EncodesTo (op : Word) (i : Instr) : Prop := i.wf = true ∧ encode i = op

theorem decodeGroup0_encodesTo {op : Word} (hg : opGroup op = 0x0#4) : EncodesTo op (decodeGroup0 op) := by
  have hfmt := formatNNN_fields hg
  unfold decodeGroup0
  split
  · exact ⟨rfl, Eq.symm ‹_›⟩
  · split
    · exact ⟨rfl, Eq.symm ‹_›⟩
    · rename_i hE0 hEE
      refine ⟨?_, hfmt⟩
      have hne0 : opNNN op ≠ 0x0E0#12 := fun h => hE0 (by rw [← hfmt, h]; rfl)
      have hneE : opNNN op ≠ 0x0EE#12 := fun h => hEE (by rw [← hfmt, h]; rfl)
      simp [Instr.wf, hne0, hneE]

theorem decodeGroup8_encodesTo {op : Word} {i : Instr} (hg : opGroup op = 0x8#4) (h : decodeGroup8 op = .ok i) :
    EncodesTo op i := by
  unfold decodeGroup8 at h
  split at h <;> cases h <;> exact ⟨rfl, formatXYN_fields hg ‹_›⟩

theorem decodeGroupE_encodesTo {op : Word} {i : Instr} (hg : opGroup op = 0xE#4) (h : decodeGroupE op = .ok i) :
    EncodesTo op i := by
  unfold decodeGroupE at h
  split at h <;> cases h <;> exact ⟨rfl, formatXNN_fields hg ‹_›⟩

theorem decodeGroupF_encodesTo {op : Word} {i : Instr} (hg : opGroup op = 0xF#4) (h : decodeGroupF op = .ok i) :
    EncodesTo op i := by
  unfold decodeGroupF at h
  split at h <;> cases h <;> exact ⟨rfl, formatXNN_fields hg ‹_›⟩

/-- Settles O2: in each group the fields the decoder takes are the word's, and the format puts them together again. -/
theorem encodeDecodeRoundTrip : Obligations.EncodeDecodeRoundTrip := by
  intro op i h
  change EncodesTo op i
  unfold decode at h
  split at h
  case h_1 hg =>
    cases h
    exact decodeGroup0_encodesTo hg
  case h_6 hg | h_10 hg =>
    split at h <;> cases h
    exact ⟨rfl, formatXYN_fields hg ‹_›⟩
  case h_9 hg => exact decodeGroup8_encodesTo hg h
  case h_14 hg =>
    cases h
    exact ⟨rfl, formatXYN_fields hg rfl⟩
  case h_15 hg => exact decodeGroupE_encodesTo hg h
  case h_16 =>
    have hg : opGroup op = 0xF#4 := by
      simp only [imp_false] at *
      bv_omega
    exact decodeGroupF_encodesTo hg h
  case h_2 hg | h_3 hg | h_11 hg | h_12 hg =>
    cases h
    exact ⟨rfl, formatNNN_fields hg⟩
  all_goals
    cases h
    exact ⟨rfl, formatXNN_fields ‹_› rfl⟩

end Sys2Proof.Machine
end

section
namespace Sys2Proof.Machine

/-! ### The decode procedure, row by row (30_encoding R94) -/

/-- Settles O3: the procedure's `g`, `n` and `nn` are the values of the fields the decoder tests, its operands are the
fields it takes. -/
theorem decodeFollowsProcedure : Obligations.DecodeFollowsProcedure := by
  intro op g n nn x y lowN byte nnn hg hx hy hn hlow hnn hbyte hnnn
  have hgroup : opGroup op = BitVec.ofNat 4 g := by rw [hg, ← opGroup_toNat, BitVec.ofNat_toNat, BitVec.setWidth_eq]
  have hopN : opN op = BitVec.ofNat 4 n := by rw [hn, ← opN_toNat, BitVec.ofNat_toNat, BitVec.setWidth_eq]
  have hopNN : opNN op = BitVec.ofNat 8 nn := by rw [hnn, ← opNN_toNat, BitVec.ofNat_toNat, BitVec.setWidth_eq]
  rw [← opX_eq] at hx
  rw [← opY_eq] at hy
  rw [← hopN] at hlow
  rw [← hopNN] at hbyte
  rw [← opNNN_eq] at hnnn
  subst x y lowN byte nnn
  refine ⟨?_, ?_, ?_, ?_⟩
  · rintro rfl
    rfl
  · rintro rfl
    rfl
  · intro h hE0 hEE
    exact decode_group0_other (by omega) hE0 hEE
  · -- The other rows: the group's value picks the arm of `decode`, the low nibble or byte the arm of its sub-table.
    and_intros
    all_goals
      intro hgroupValue
      simp +contextual [decode, decodeGroup8, decodeGroupE, decodeGroupF, hgroup, hopN, hopNN, hgroupValue]

/-! ### The illegal words (30_encoding R99) -/

theorem decodeGroup8_eq_error_iff (op : Word) :
    decodeGroup8 op = .error (.unknownOpcode op) ↔ (opN op).toNat ∈ [0x8, 0x9, 0xA, 0xB, 0xC, 0xD, 0xF] := by
  unfold decodeGroup8
  split
  case h_10 =>
    simp only [List.mem_cons, List.not_mem_nil, or_false, true_iff, imp_false] at *
    bv_omega
  all_goals simp [*]

theorem decodeGroupE_eq_error_iff (op : Word) :
    decodeGroupE op = .error (.unknownOpcode op) ↔ (opNN op).toNat ∉ [0x9E, 0xA1] := by
  unfold decodeGroupE
  split <;> simp_all [← BitVec.toNat_inj]

theorem decodeGroupF_eq_error_iff (op : Word) :
    decodeGroupF op = .error (.unknownOpcode op) ↔
      (opNN op).toNat ∉ [0x07, 0x0A, 0x15, 0x18, 0x1E, 0x29, 0x33, 0x55, 0x65] := by
  unfold decodeGroupF
  split <;> simp_all [← BitVec.toNat_inj]

/-- Settles O4: group by group, the decoder errs exactly where its table of low nibbles or low bytes has no row. -/
theorem illegalWordsRejected : Obligations.IllegalWordsRejected := by
  intro op
  rw [IllegalWord, ← opGroup_toNat, ← opN_toNat, ← opNN_toNat]
  unfold decode
  split
  case h_6 hg | h_10 hg =>
    split
    · simp [*]
    · rename_i hne
      simpa [hg, ← BitVec.toNat_inj] using hne
  case h_9 hg => simp [hg, decodeGroup8_eq_error_iff]
  case h_15 hg => simp [hg, decodeGroupE_eq_error_iff]
  case h_16 =>
    have hg : opGroup op = 0xF#4 := by
      simp only [imp_false] at *
      bv_omega
    simp [hg, decodeGroupF_eq_error_iff]
  all_goals simp [*]

end Sys2Proof.Machine
end

section
namespace Sys2Proof.Machine

/-! ### What an instruction can do (40_step R123, R126): a fault of its own, or its effect

`faultOf` is the check an instruction makes and `effect` the state it leaves where the check passes; `exec_eq` ties
both to `exec`, so that a claim about every instruction is a claim about `faultOf` and one about `effect`. -/

/-- The fault of a data access up to `last` (20_memory R64). -/
def rangeFault (last : Nat) : Option (FaultKind × Word) :=
  if last < 0x1000 then none else some (.addressOutOfRange, BitVec.ofNat 16 last)

/-- The fault of a key index (44_keypad R222). -/
def keyFault (b : Byte) : Option (FaultKind × Word) :=
  if b.toNat ≤ 15 then none else some (.keyIndexOutOfRange, zext8 b)

/-- The fault an instruction raises in a state, with its info (60_exceptions R243 to R247). -/
def faultOf (i : Instr) (s : State) : Option (FaultKind × Word) :=
  match i with
  | .op00EE => if 0 < s.sp.val then none else some (.stackUnderflow, 0x00EE#16)
  | .op2NNN nnn => if s.sp.val < 16 then none else some (.stackOverflow, encode (.op2NNN nnn))
  | .opDXYN _ _ n => if n = 0 then none else rangeFault (s.dataAddr (n.toNat - 1))
  | .opEX9E x | .opEXA1 x => keyFault (s.getV x)
  | .opFX33 _ => rangeFault (s.dataAddr 2)
  | .opFX55 x | .opFX65 x => rangeFault (s.dataAddr x.toNat)
  | _ => none

/-- PC 2 further where `c` holds (00_scope R10). -/
def State.advanceIf (s : State) (c : Bool) : State := if c then s.advancePc else s

/-- The state an instruction leaves where it raises no fault. -/
def effect (i : Instr) (s : State) : State :=
  match i with
  | .op00E0 => s.setFb clearedFb
  | .op00EE => s.pop.getD s
  | .op0NNN _ => s
  | .op1NNN nnn => s.setPc (zext12 nnn)
  | .op2NNN nnn => (s.push.getD s).setPc (zext12 nnn)
  | .op3XNN x nn => s.advanceIf (s.getV x = nn)
  | .op4XNN x nn => s.advanceIf (s.getV x ≠ nn)
  | .op5XY0 x y => s.advanceIf (s.getV x = s.getV y)
  | .op6XNN x nn => s.setV x nn
  | .op7XNN x nn => s.setV x (s.getV x + nn)
  | .op8XY0 x y => s.setV x (s.getV y)
  | .op8XY1 x y => s.setV x (s.getV x ||| s.getV y)
  | .op8XY2 x y => s.setV x (s.getV x &&& s.getV y)
  | .op8XY3 x y => s.setV x (s.getV x ^^^ s.getV y)
  | .op8XY4 x y => s.setResultFlag x (s.getV x + s.getV y) (carryFlag (s.getV x) (s.getV y))
  | .op8XY5 x y => s.setResultFlag x (s.getV x - s.getV y) (noBorrowFlag (s.getV x) (s.getV y))
  | .op8XY6 x _ => s.setResultFlag x (s.getV x >>> 1) (shiftRightOut (s.getV x))
  | .op8XY7 x y => s.setResultFlag x (s.getV y - s.getV x) (noBorrowFlag (s.getV y) (s.getV x))
  | .op8XYE x _ => s.setResultFlag x (s.getV x <<< 1) (shiftLeftOut (s.getV x))
  | .op9XY0 x y => s.advanceIf (s.getV x ≠ s.getV y)
  | .opANNN nnn => s.setI (zext12 nnn)
  | .opBNNN nnn => s.setPc (zext12 nnn + zext8 (s.getV 0))
  | .opCXNN x nn => { s.setV x (s.rand8 &&& nn) with randIn := s.randIn.advance }
  | .opDXYN x y n => drawFromI x y n s
  | .opEX9E x => s.advanceIf (s.keyDown (s.getV x).toNat)
  | .opEXA1 x => s.advanceIf (!s.keyDown (s.getV x).toNat)
  | .opFX07 x => s.setV x s.dt
  | .opFX0A x => s.setMode (.awaitingKey x)
  | .opFX15 x => s.setDt (s.getV x)
  | .opFX18 x => s.setSt (s.getV x)
  | .opFX1E x => s.setI (s.i + zext8 (s.getV x))
  | .opFX29 x => s.setI (zext8 (s.getV x) * 5)
  | .opFX33 x => s.setMem (storeBcd s.mem (s.dataAddr 0) (s.getV x))
  | .opFX55 x => s.setMem (storeRegs s (s.dataAddr 0) (x.toNat + 1))
  | .opFX65 x => loadRegs s (s.dataAddr 0) (x.toNat + 1)

/-- HALT set to the fault where there is one, else the state `t`. -/
def State.faultOr (s : State) (fault : Option (FaultKind × Word)) (t : State) : State :=
  match fault with
  | none => t
  | some (kind, info) => s.setHalt (.faulted kind info (s.pc - 2))

@[simp] theorem faultOr_none (s t : State) : s.faultOr none t = t := rfl

@[simp] theorem faultOr_some (s t : State) (kind : FaultKind) (info : Word) :
    s.faultOr (some (kind, info)) t = s.setHalt (.faulted kind info (s.pc - 2)) := rfl

/-! The checks, by whether they pass. -/

theorem rangeFault_of_lt {last : Nat} (h : last < 0x1000) : rangeFault last = none := if_pos h

theorem rangeFault_of_ge {last : Nat} (h : 0x1000 ≤ last) :
    rangeFault last = some (.addressOutOfRange, BitVec.ofNat 16 last) := if_neg (Nat.not_lt.2 h)

theorem keyFault_of_le {b : Byte} (h : b.toNat ≤ 15) : keyFault b = none := if_pos h

theorem keyFault_of_gt {b : Byte} (h : 15 < b.toNat) : keyFault b = some (.keyIndexOutOfRange, zext8 b) :=
  if_neg (Nat.not_le.2 h)

theorem faultOf_op00EE_of_pos {s : State} (h : 0 < s.sp.val) : faultOf .op00EE s = none := if_pos h

theorem faultOf_op00EE_of_zero {s : State} (h : s.sp.val = 0) :
    faultOf .op00EE s = some (.stackUnderflow, 0x00EE#16) := if_neg (by omega)

theorem faultOf_op2NNN_of_lt {s : State} (nnn : Imm12) (h : s.sp.val < 16) : faultOf (.op2NNN nnn) s = none := if_pos h

theorem faultOf_op2NNN_of_full {s : State} (nnn : Imm12) (h : s.sp.val = 16) :
    faultOf (.op2NNN nnn) s = some (.stackOverflow, encode (.op2NNN nnn)) := if_neg (by omega)

theorem faultOf_opDXYN_of_ne {s : State} (x y : Nibble) {n : Nibble} (h : n ≠ 0) :
    faultOf (.opDXYN x y n) s = rangeFault (s.dataAddr (n.toNat - 1)) := if_neg h

theorem rangeFault_eq_some_iff {last : Nat} {kind : FaultKind} {info : Word} :
    rangeFault last = some (kind, info) ↔ 0xFFF < last ∧ kind = .addressOutOfRange ∧ info = BitVec.ofNat 16 last := by
  rcases Nat.lt_or_ge last 0x1000 with h | h
  · simp only [rangeFault_of_lt h, reduceCtorEq, false_iff]
    omega
  · rw [rangeFault_of_ge h]
    constructor
    · rintro ⟨⟩
      exact ⟨h, rfl, rfl⟩
    · rintro ⟨-, rfl, rfl⟩
      rfl

theorem keyFault_eq_some_iff {b : Byte} {kind : FaultKind} {info : Word} :
    keyFault b = some (kind, info) ↔ 15 < b.toNat ∧ kind = .keyIndexOutOfRange ∧ info = zext8 b := by
  rcases Nat.lt_or_ge 15 b.toNat with h | h
  · simp [keyFault_of_gt h, h, eq_comm]
  · simp [keyFault_of_le h, Nat.not_lt.2 h]

/-! `exec` by `faultOf` and `effect`. -/

/-- A range check before an effect. -/
theorem withLastAddr_eq (last : Nat) (f : State → State) (s : State) :
    withLastAddr last (fun s => .next (f s)) s = .next (s.faultOr (rangeFault last) (f s)) := by
  rcases Nat.lt_or_ge last 0x1000 with h | h
  · rw [withLastAddr_of_lt h, rangeFault_of_lt h, faultOr_none]
  · rw [withLastAddr_of_ge h, rangeFault_of_ge h, faultOr_some]

/-- A key index check before a skip. -/
theorem withKeyIndex_eq (b : Byte) (c : Nat → State → Bool) (s : State) :
    withKeyIndex b (fun k s => skipIf (c k s) s) s =
      .next (s.faultOr (keyFault b) (s.advanceIf (c b.toNat s))) := by
  rcases Nat.lt_or_ge 15 b.toNat with h | h
  · rw [withKeyIndex_of_gt h, keyFault_of_gt h, faultOr_some]
  · rw [withKeyIndex_of_le h, keyFault_of_le h, faultOr_none, skipIf_eq, State.advanceIf]

/-- Every instruction answers a next state: the fault its check finds, or its effect. -/
theorem exec_eq (i : Instr) (s : State) : exec i s = .next (s.faultOr (faultOf i s) (effect i s)) := by
  cases i with
  | op00EE =>
    rcases Nat.eq_zero_or_pos s.sp.val with h | h
    · rw [exec_op00EE_of_zero h, faultOf_op00EE_of_zero h, faultOr_some]
    · rw [exec_op00EE_of_pos h, faultOf_op00EE_of_pos h, faultOr_none, effect, pop_some h, Option.getD_some]
  | op2NNN nnn =>
    by_cases h : s.sp.val < 16
    · rw [faultOf_op2NNN_of_lt nnn h, faultOr_none, effect, exec, exec2NNN, push_some h, Option.getD_some]
    · rw [faultOf_op2NNN_of_full nnn (by omega), faultOr_some, exec, exec2NNN, push_none h, raise_eq]
  | opDXYN x y n =>
    by_cases h : n = 0
    · rw [h, exec_opDXYN_zero]
      rfl
    · rw [exec_opDXYN_of_ne x y h, withLastAddr_eq, faultOf_opDXYN_of_ne x y h]
      rfl
  | opEX9E x => exact withKeyIndex_eq (s.getV x) (fun k s => s.keyDown k) s
  | opEXA1 x => exact withKeyIndex_eq (s.getV x) (fun k s => !s.keyDown k) s
  | opFX33 x => exact withLastAddr_eq _ (effect (.opFX33 x)) s
  | opFX55 x => exact withLastAddr_eq _ (effect (.opFX55 x)) s
  | opFX65 x => exact withLastAddr_eq _ (effect (.opFX65 x)) s
  | _ => rfl

theorem exec_of_no_fault {i : Instr} {s : State} (h : faultOf i s = none) : exec i s = .next (effect i s) := by
  rw [exec_eq, h, faultOr_none]

theorem exec_of_fault {i : Instr} {s : State} {kind : FaultKind} {info : Word} (h : faultOf i s = some (kind, info)) :
    exec i s = .next (s.setHalt (.faulted kind info (s.pc - 2))) := by
  rw [exec_eq, h, faultOr_some]

/-- Everything an instruction can answer. -/
theorem exec_cases {i : Instr} {s t : State} (h : exec i s = .next t) :
    (faultOf i s = none ∧ t = effect i s) ∨
    ∃ kind info, faultOf i s = some (kind, info) ∧ t = s.setHalt (.faulted kind info (s.pc - 2)) := by
  rcases hf : faultOf i s with _ | ⟨kind, info⟩
  · rw [exec_of_no_fault hf] at h
    cases h
    exact .inl ⟨rfl, rfl⟩
  · rw [exec_of_fault hf] at h
    cases h
    exact .inr ⟨kind, info, rfl, rfl⟩

end Sys2Proof.Machine
end

section
namespace Sys2Proof.Machine

/-! ### Frames of the state's operations -/

section
variable {vw vw' : Nibble → Prop} {mw mw' : Nat → Prop} {parts parts' : List Part} {s t : State}

theorem frame_refl (s : State) : Frame vw mw parts s s := by
  simp [Frame]

/-- A frame that allows more. -/
theorem Frame.mono (h : Frame vw mw parts s t) (hv : ∀ r, vw r → vw' r) (hm : ∀ a, mw a → mw' a)
    (hp : ∀ p ∈ parts, p ∈ parts') : Frame vw' mw' parts' s t := by
  obtain ⟨hreg, hmem, hpc, hi, hstack, hdt, hst, hfb, hmode, hhalt, hrand, hrest⟩ := h
  exact ⟨fun r => hreg r ∘ mt (hv r), fun a => hmem a ∘ mt (hm a), hpc ∘ mt (hp _), hi ∘ mt (hp _),
    hstack ∘ mt (hp _), hdt ∘ mt (hp _), hst ∘ mt (hp _), hfb ∘ mt (hp _), hmode ∘ mt (hp _), hhalt ∘ mt (hp _),
    hrand ∘ mt (hp _), hrest⟩

end

theorem frame_setHalt (s : State) (h : Halt) : Frame noReg noAddr [.halt] s (s.setHalt h) := by
  simp [Frame]

theorem frame_setDt (s : State) (b : Byte) : Frame noReg noAddr [.delay] s (s.setDt b) := by
  simp [Frame]

theorem frame_setSt (s : State) (b : Byte) : Frame noReg noAddr [.sound] s (s.setSt b) := by
  simp [Frame]

theorem frame_setMem (s : State) {m : Memory} {mw : Nat → Prop} (h : ∀ a, ¬ mw a → m.read a = s.mem.read a) :
    Frame noReg mw [] s (s.setMem m) := by
  simpa [Frame] using h

theorem frame_setResultFlag (s : State) (x : Nibble) (b : Byte) (f : Bool) :
    Frame (fun r => r = x ∨ r = flagReg) noAddr [] s (s.setResultFlag x b f) := by
  simp +contextual [Frame, getV_setResultFlag]

/-- Writing a register and taking a draw changes nothing else. -/
theorem frame_setV_randIn (s : State) (x : Nibble) (b : Byte) (p : Port Byte) :
    Frame (fun r => r = x) noAddr [.random] s { s.setV x b with randIn := p } := by
  refine ⟨fun r => getV_setV_of_ne s x r b, ?_⟩
  simp

theorem frame_advanceIf (s : State) (c : Bool) : Frame noReg noAddr [.pc] s (s.advanceIf c) := by
  cases c
  · exact frame_refl s
  · exact frame_setPc s _

theorem frame_pop (s : State) : Frame noReg noAddr [.pc, .stack] s (s.pop.getD s) := by
  by_cases h : 0 < s.sp.val
  · rw [pop_some h]
    exact frame_stack_pc s _ _ _
  · rw [pop_none h]
    exact frame_refl s

theorem frame_push_setPc (s : State) (a : Word) : Frame noReg noAddr [.pc, .stack] s ((s.push.getD s).setPc a) := by
  by_cases h : s.sp.val < 16
  · rw [push_some h]
    exact frame_stack_pc s _ _ _
  · rw [push_none h]
    exact frame_stack_pc s s.stack s.sp a

theorem frame_drawFromI (x y n : Nibble) (s : State) :
    Frame (fun r => r = flagReg) noAddr [.display] s (drawFromI x y n s) := by
  simp +contextual [Frame, drawFromI, getV_setFlag]

theorem frame_storeBcd (s : State) (b : Byte) :
    Frame noReg (fun a => s.dataAddr 0 ≤ a ∧ a ≤ s.dataAddr 2) [] s
      (s.setMem (storeBcd s.mem (s.dataAddr 0) b)) := by
  refine frame_setMem s fun a hout => ?_
  simp only [State.dataAddr] at hout ⊢
  rw [storeBcd, read_write_of_ne _ _ _ _ (by omega), read_write_of_ne _ _ _ _ (by omega),
    read_write_of_ne _ _ _ _ (by omega)]

theorem frame_storeRegs (s : State) (x : Nibble) :
    Frame noReg (fun a => s.dataAddr 0 ≤ a ∧ a ≤ s.dataAddr x.toNat) [] s
      (s.setMem (storeRegs s (s.dataAddr 0) (x.toNat + 1))) := by
  refine frame_setMem s fun a hout => ?_
  simp only [State.dataAddr] at hout ⊢
  exact read_storeRegs_outside s _ a _ (by omega)

theorem frame_loadRegs (s : State) (x : Nibble) :
    Frame (fun r => r.toNat ≤ x.toNat) noAddr [] s (loadRegs s (s.dataAddr 0) (x.toNat + 1)) := by
  have hreg : ∀ r : Nibble, ¬ r.toNat ≤ x.toNat → (loadRegs s (s.dataAddr 0) (x.toNat + 1)).getV r = s.getV r :=
    fun r hr => (getV_loadRegs s _ r _ (by omega)).trans (if_neg (by omega))
  rw [loadRegs_eq] at hreg ⊢
  simpa [Frame] using hreg

/-! ### The frame of every instruction (10_state sections 2, 5 and 7, 20_memory section 5) -/

/-- The parts an instruction may write where it raises no fault. -/
def effectParts (i : Instr) : List Part := (writesParts i).filter (· ≠ .halt)

/-- An effect writes only what the tables of Safety.lean list, and never HALT. -/
theorem frame_effect (i : Instr) (s : State) :
    Frame (writesV i) (writesMem s i) (effectParts i) s (effect i s) := by
  cases i with
  | op00E0 => exact frame_setFb s _
  | op00EE => exact frame_pop s
  | op0NNN => exact frame_refl s
  | op1NNN | opBNNN => exact frame_setPc s _
  | op2NNN => exact frame_push_setPc s _
  | op3XNN | op4XNN | op5XY0 | op9XY0 | opEX9E | opEXA1 => exact frame_advanceIf s _
  | op6XNN | op7XNN | op8XY0 | op8XY1 | op8XY2 | op8XY3 | opFX07 => exact frame_setV s _ _
  | op8XY4 | op8XY5 | op8XY6 | op8XY7 | op8XYE => exact frame_setResultFlag s _ _ _
  | opANNN | opFX1E | opFX29 => exact frame_setI s _
  | opCXNN => exact frame_setV_randIn s _ _ _
  | opDXYN => exact frame_drawFromI _ _ _ s
  | opFX0A => exact frame_setMode s _
  | opFX15 => exact frame_setDt s _
  | opFX18 => exact frame_setSt s _
  | opFX33 => exact frame_storeBcd s _
  | opFX55 => exact frame_storeRegs s _
  | opFX65 => exact frame_loadRegs s _

theorem effect_halt (i : Instr) (s : State) : (effect i s).halt = s.halt := by
  obtain ⟨-, -, -, -, -, -, -, -, -, hhalt, -⟩ := frame_effect i s
  exact hhalt (by simp [effectParts])

/-- An instruction with a fault of its own may write HALT. -/
theorem halt_mem_writesParts {i : Instr} {s : State} {f : FaultKind × Word} (h : faultOf i s = some f) :
    .halt ∈ writesParts i := by
  cases i with
  | op00EE | op2NNN | opDXYN | opEX9E | opEXA1 | opFX33 | opFX55 | opFX65 => simp [writesParts]
  | _ => cases h

/-- Settles O24: an effect's frame, or the fault's, which is HALT alone. -/
theorem instrWritesOnlyItsOwn : Obligations.InstrWritesOnlyItsOwn := by
  intro i s t h
  obtain ⟨-, rfl⟩ | ⟨kind, info, hfault, rfl⟩ := exec_cases h
  · exact (frame_effect i s).mono (fun _ => id) (fun _ => id) fun p => List.mem_of_mem_filter
  · refine (frame_setHalt s _).mono (fun _ => False.elim) (fun _ => False.elim) fun p hp => ?_
    rw [List.mem_singleton.1 hp]
    exact halt_mem_writesParts hfault

end Sys2Proof.Machine
end

section
namespace Sys2Proof.Machine

/-! ### Faults (60_exceptions sections 1 and 2) -/

/-- Which instruction raises which fault, under which condition, with which info: the causes of `faultOf`. -/
theorem faultOf_causes {i : Instr} {s : State} {kind : FaultKind} {info : Word} (h : faultOf i s = some (kind, info)) :
    (kind = .stackOverflow ∧ (∃ nnn, i = .op2NNN nnn) ∧ info = encode i ∧ s.sp.val = 16) ∨
    (kind = .stackUnderflow ∧ i = .op00EE ∧ info = 0x00EE#16 ∧ s.sp.val = 0) ∨
    (kind = .addressOutOfRange ∧ ∃ last, 0xFFF < last ∧ info = BitVec.ofNat 16 last ∧
      ((∃ x y n, i = .opDXYN x y n ∧ 0 < n.toNat ∧ last = s.i.toNat + n.toNat - 1) ∨
       (∃ x, i = .opFX33 x ∧ last = s.i.toNat + 2) ∨
       (∃ x, (i = .opFX55 x ∨ i = .opFX65 x) ∧ last = s.i.toNat + x.toNat))) ∨
    (kind = .keyIndexOutOfRange ∧ ∃ x, (i = .opEX9E x ∨ i = .opEXA1 x) ∧ 15 < (s.getV x).toNat ∧
      info.toNat = (s.getV x).toNat) := by
  cases i with
  | op00EE =>
    rcases Nat.eq_zero_or_pos s.sp.val with hsp | hsp
    · rw [faultOf_op00EE_of_zero hsp] at h
      cases h
      exact .inr (.inl ⟨rfl, rfl, rfl, hsp⟩)
    · rw [faultOf_op00EE_of_pos hsp] at h
      cases h
  | op2NNN nnn =>
    by_cases hsp : s.sp.val < 16
    · rw [faultOf_op2NNN_of_lt nnn hsp] at h
      cases h
    · have hfull : s.sp.val = 16 := by omega
      rw [faultOf_op2NNN_of_full nnn hfull] at h
      cases h
      exact .inl ⟨rfl, ⟨nnn, rfl⟩, rfl, hfull⟩
  | opDXYN x y n =>
    by_cases hn : n = 0
    · rw [hn] at h
      cases h
    · have hrows : 0 < n.toNat := Nat.pos_of_ne_zero fun hzero => hn (BitVec.eq_of_toNat_eq hzero)
      rw [faultOf_opDXYN_of_ne x y hn] at h
      obtain ⟨hlast, rfl, rfl⟩ := rangeFault_eq_some_iff.1 h
      exact .inr (.inr (.inl ⟨rfl, _, hlast, rfl, .inl ⟨x, y, n, rfl, hrows, (Nat.add_sub_assoc hrows _).symm⟩⟩))
  | opEX9E x | opEXA1 x =>
    obtain ⟨hkey, rfl, rfl⟩ := keyFault_eq_some_iff.1 h
    exact .inr (.inr (.inr ⟨rfl, x, by simp, hkey, zext8_toNat _⟩))
  | opFX33 x =>
    obtain ⟨hlast, rfl, rfl⟩ := rangeFault_eq_some_iff.1 h
    exact .inr (.inr (.inl ⟨rfl, _, hlast, rfl, .inr (.inl ⟨x, rfl, rfl⟩)⟩))
  | opFX55 x | opFX65 x =>
    obtain ⟨hlast, rfl, rfl⟩ := rangeFault_eq_some_iff.1 h
    exact .inr (.inr (.inl ⟨rfl, _, hlast, rfl, .inr (.inr ⟨x, by simp, rfl⟩)⟩))
  | _ => cases h

/-- Settles O23: an effect leaves HALT, so the answer is the fault, whose causes are those of `faultOf`. -/
theorem faultsArePrecise : Obligations.FaultsArePrecise := by
  intro i s t hrun h hhalt
  obtain ⟨-, rfl⟩ | ⟨kind, info, hfault, rfl⟩ := exec_cases h
  · exact absurd ((effect_halt i s).trans hrun) hhalt
  · exact ⟨kind, info, rfl, faultOf_causes hfault⟩

end Sys2Proof.Machine
end

section
namespace Sys2Proof.Machine

/-! ### The flag (10_state section 3) -/

theorem flagByte_zero_or_one (f : Bool) : flagByte f = 0x00 ∨ flagByte f = 0x01 := by
  cases f
  · exact .inl rfl
  · exact .inr rfl

/-- Settles O25: with no fault raised the answer is the effect, whose last write is a flag into VF. -/
theorem flagIsZeroOrOne : Obligations.FlagIsZeroOrOne := by
  intro i s t _ h hhalt hi
  obtain ⟨-, rfl⟩ | ⟨kind, info, -, rfl⟩ := exec_cases h
  · have hflag : ∃ f, (effect i s).getV flagReg = flagByte f := by
      obtain ⟨x, y, rfl | rfl | rfl | rfl | rfl | ⟨n, rfl⟩⟩ := hi
      all_goals exact ⟨_, getV_setV_same ..⟩
    obtain ⟨f, hf⟩ := hflag
    exact hf ▸ flagByte_zero_or_one f
  · simp at hhalt

/-! ### What most instructions do not read (10_state sections 6 and 7, 41_alu section 4, 44_keypad section 2) -/

/-- A change of the sound timer, the key latch, the random input and the framebuffer, each by a function of its own. -/
structure Bystanders where
  st : Byte → Byte := id
  keys : Word → Word := id
  randIn : Port Byte → Port Byte := id
  fb : FrameBuffer → FrameBuffer := id

/-- The state after the change. -/
def Bystanders.apply (u : Bystanders) (s : State) : State :=
  { s with st := u.st s.st, keys := u.keys s.keys, randIn := u.randIn s.randIn, fb := u.fb s.fb }

/-- Each part changed is one the instruction does not name. -/
structure Bystanders.Unnamed (u : Bystanders) (i : Instr) : Prop where
  st : (∃ x, i = .opFX18 x) → u.st = id
  keys : (∃ x, i = .opEX9E x ∨ i = .opEXA1 x) → u.keys = id
  randIn : (∃ x nn, i = .opCXNN x nn) → u.randIn = id
  fb : (i = .op00E0 ∨ ∃ x y n, i = .opDXYN x y n) → u.fb = id

section
variable (u : Bystanders) (s : State)

theorem advanceIf_apply (c : Bool) : (u.apply s).advanceIf c = u.apply (s.advanceIf c) := by
  cases c <;> rfl

theorem pop_apply : (u.apply s).pop.getD (u.apply s) = u.apply (s.pop.getD s) := by
  by_cases h : 0 < s.sp.val
  · have h' : 0 < (u.apply s).sp.val := h
    rw [pop_some h, pop_some h']
    rfl
  · have h' : ¬ 0 < (u.apply s).sp.val := h
    rw [pop_none h, pop_none h']
    rfl

theorem push_apply : (u.apply s).push.getD (u.apply s) = u.apply (s.push.getD s) := by
  by_cases h : s.sp.val < 16
  · have h' : (u.apply s).sp.val < 16 := h
    rw [push_some h, push_some h']
    rfl
  · have h' : ¬ (u.apply s).sp.val < 16 := h
    rw [push_none h, push_none h']
    rfl

theorem storeRegs_apply (base : Nat) : ∀ n, storeRegs (u.apply s) base n = storeRegs s base n
  | 0 => rfl
  | k + 1 => by
    rw [storeRegs, storeRegs_apply base k]
    rfl

theorem loadRegs_apply (base : Nat) : ∀ n, loadRegs (u.apply s) base n = u.apply (loadRegs s base n)
  | 0 => rfl
  | k + 1 => by
    rw [loadRegs, loadRegs_apply base k]
    rfl

/-- No check reads a part that the instruction does not name. -/
theorem faultOf_apply (i : Instr) : faultOf i (u.apply s) = faultOf i s := by
  cases i <;> rfl

variable {u} {i : Instr} (h : u.Unnamed i)
include h

/-- No effect reads or writes a part that the instruction does not name. -/
theorem effect_apply : effect i (u.apply s) = u.apply (effect i s) := by
  obtain ⟨st, keys, randIn, fb⟩ := u
  cases i with
  | op00EE => exact pop_apply _ s
  | op2NNN => exact congrArg (State.setPc · _) (push_apply _ s)
  | op3XNN | op4XNN | op5XY0 | op9XY0 => exact advanceIf_apply _ s _
  | opEX9E x =>
    obtain rfl : keys = id := h.keys ⟨x, .inl rfl⟩
    exact advanceIf_apply _ s _
  | opEXA1 x =>
    obtain rfl : keys = id := h.keys ⟨x, .inr rfl⟩
    exact advanceIf_apply _ s _
  | op00E0 =>
    obtain rfl : fb = id := h.fb (.inl rfl)
    rfl
  | opDXYN x y n =>
    obtain rfl : fb = id := h.fb (.inr ⟨x, y, n, rfl⟩)
    rfl
  | opCXNN x nn =>
    obtain rfl : randIn = id := h.randIn ⟨x, nn, rfl⟩
    rfl
  | opFX18 x =>
    obtain rfl : st = id := h.st ⟨x, rfl⟩
    rfl
  | opFX55 x => exact congrArg (State.setMem _) (storeRegs_apply _ s _ _)
  | opFX65 x => exact loadRegs_apply _ s _ _
  | _ => rfl

/-- An instruction does the same with other values in the parts it does not name, and leaves those values. -/
theorem exec_apply {t : State} (ht : exec i s = .next t) : exec i (u.apply s) = .next (u.apply t) := by
  rw [exec_eq] at ht ⊢
  cases ht
  rw [faultOf_apply, effect_apply s h]
  rcases faultOf i s with _ | ⟨kind, info⟩
  · rfl
  · rfl

end

/-- Settles O26: ST is a bystander of every instruction but FX18, which overwrites it. -/
theorem noInstrReadsSoundTimer : Obligations.NoInstrReadsSoundTimer := by
  intro i s t b h
  constructor
  · intro hne
    have hu : Bystanders.Unnamed { st := fun _ => b } i :=
      { st := fun ⟨x, hx⟩ => absurd hx (hne x), keys := fun _ => rfl, randIn := fun _ => rfl, fb := fun _ => rfl }
    exact exec_apply s hu h
  · rintro ⟨x, rfl⟩
    exact h

/-- Settles O27: the latch, the random input and the framebuffer are bystanders of every instruction that does not name
them. -/
theorem inputsReadOnlyWhereNamed : Obligations.InputsReadOnlyWhereNamed := by
  intro i s t h
  refine ⟨fun k hne => ?_, fun p hne => ?_, fun f hne hne' => ?_⟩
  · have hu : Bystanders.Unnamed { keys := fun _ => k } i :=
      { st := fun _ => rfl, keys := fun ⟨x, hx⟩ => absurd hx (not_or.2 (hne x)), randIn := fun _ => rfl,
        fb := fun _ => rfl }
    exact exec_apply s hu h
  · have hu : Bystanders.Unnamed { randIn := fun _ => p } i :=
      { st := fun _ => rfl, keys := fun _ => rfl, randIn := fun ⟨x, nn, hx⟩ => absurd hx (hne x nn),
        fb := fun _ => rfl }
    exact exec_apply s hu h
  · have hu : Bystanders.Unnamed { fb := fun _ => f } i :=
      { st := fun _ => rfl, keys := fun _ => rfl, randIn := fun _ => rfl,
        fb := fun hx => absurd hx (not_or.2 ⟨hne, fun ⟨x, y, n, hx⟩ => hne' x y n hx⟩) }
    exact exec_apply s hu h

end Sys2Proof.Machine
end

section
namespace Sys2Proof.Machine

/-! ### The step at an invocation (40_step section 1) -/

/-- Moving on after an invocation, by whether HALT was set. -/
theorem finishInvoke_eq (k : Fin Config.cyclesPerFrame) (t : State) :
    finishInvoke k t = if t.halt = .none then t.setSeq (Seq.afterInvoke k) else t := by
  split
  · exact finishInvoke_of_none ‹_›
  · exact finishInvoke_of_ne ‹_›

/-- Settles O7: the execute stage is `exec` of the decoded instruction, which always answers a next state. -/
theorem stepRunsDecodedInstr : Obligations.StepRunsDecodedInstr := by
  intro s k i hs hpc _ hdecode
  have hexec := (execWord_of_ok hdecode s.advancePc).trans (exec_eq i s.advancePc)
  have hanswer : exec i { s with pc := s.pc + 2 } = _ := exec_eq i s.advancePc
  rw [step_of_execWord hs hpc hexec, hanswer, finishInvoke_eq]
  rfl

/-- Settles O8: the fetch fails, and the fault's record is all that changes. -/
theorem fetchOutOfRangeFaults : Obligations.FetchOutOfRangeFaults :=
  fun _ _ hs hpc => step_of_fetch_fails hs hpc

/-- Settles O9: the decoder errs, so the execute stage raises the fault on the state with PC advanced. -/
theorem illegalWordFaults : Obligations.IllegalWordFaults := by
  intro s k hs hpc hillegal
  have herror := (illegalWordsRejected _).2 hillegal
  rw [step_of_execWord hs hpc (execWord_of_error herror s.advancePc), finishInvoke_of_ne (by simp),
    advancePc_pc, BitVec.add_sub_cancel]
  rfl

/-! ### Runs -/

section
variable {M : Host.Core} {s t : M.State}

theorem run_succ_of_next (h : M.step s = .next t) (n : Nat) : M.run (n + 1) s = M.run n t := by
  rw [Host.Core.run, h]

theorem run_succ_of_fault {r : M.Fault} (h : M.step s = .fault r) (n : Nat) : M.run (n + 1) s = .fault r := by
  rw [Host.Core.run, h]

/-- A run of `m + n` steps is one of `m` steps, then one of `n` steps from where it ended. -/
theorem run_add_of_next (n : Nat) : ∀ {m : Nat} {s : M.State}, M.run m s = .next t → M.run (m + n) s = M.run n t
  | 0, _, h => by
    cases h
    rw [Nat.zero_add]
  | m + 1, s, h => by
    rw [Nat.add_right_comm]
    cases hstep : M.step s with
    | next u =>
      rw [run_succ_of_next hstep] at h ⊢
      exact run_add_of_next n h
    | fault r =>
      rw [run_succ_of_fault hstep] at h
      cases h
    | refused r =>
      rw [Host.Core.run, hstep] at h
      cases h

end

theorem step_of_faulted {s : State} {kind : FaultKind} {info fpc : Word} (h : s.halt = .faulted kind info fpc) :
    step s = .fault (.coreFaulted kind info fpc) := by
  simp only [step, h]

theorem step_of_stopped {s : State} (h : s.halt = .stopped) : step s = .fault .coreStopped := by
  simp only [step, h]

theorem core_run_succ {s t : State} (h : step s = .next t) (n : Nat) : core.run (n + 1) s = core.run n t :=
  run_succ_of_next h n

/-- From a halted core every run answers the interface's fault. -/
theorem core_run_of_faulted {s : State} {kind : FaultKind} {info fpc : Word} (h : s.halt = .faulted kind info fpc)
    (n : Nat) : core.run (n + 1) s = .fault (.coreFaulted kind info fpc) :=
  run_succ_of_fault (step_of_faulted h) n

/-- Settles O10: the first step answers the interface's fault, and a run ends there. -/
theorem haltedCoreHasNoStep : Obligations.HaltedCoreHasNoStep := fun _ n =>
  ⟨fun _ _ _ h => core_run_of_faulted h n, fun h => run_succ_of_fault (step_of_stopped h) n⟩

end Sys2Proof.Machine
end

section
namespace Sys2Proof.Machine

/-! ### One step, by the sequencer's position (60_exceptions R263) -/

section
variable {s : State} (hrun : s.halt = .none)
include hrun

theorem step_of_running : step s = seqStep s := by
  rw [step, hrun]

theorem step_frameStart (hseq : s.seq = .frameStart) : step s = .next (frameStart s) := by
  rw [step_of_running hrun, seqStep, hseq]

theorem step_invoke {k : Fin Config.cyclesPerFrame} (hseq : s.seq = .invoke k) : step s = invokeStep k s := by
  rw [step_of_running hrun, seqStep, hseq]

theorem step_tick (hseq : s.seq = .tick) : step s = .next (timerTick s) := by
  rw [step_of_running hrun, seqStep, hseq]

theorem step_audioUpdate (hseq : s.seq = .audioUpdate) : step s = .next (audioUpdate s) := by
  rw [step_of_running hrun, seqStep, hseq]

theorem step_present (hseq : s.seq = .present) : step s = .next (presentFrame s) := by
  rw [step_of_running hrun, seqStep, hseq]

end

theorem frameStart_of_clear {s : State} (h : s.runEnSample = false) :
    frameStart s = { s with runEn := s.runEn.advance, halt := .stopped } := by
  simp [frameStart, h]

theorem frameStart_of_set {s : State} (h : s.runEnSample = true) :
    frameStart s = { s with runEn := s.runEn.advance, keys := s.keysSample, keysIn := s.keysIn.advance,
                            seq := .invoke ⟨0, by decide⟩ } := by
  simp [frameStart, h]

/-- Settles O12: with the run flag clear the frame start is one write of HALT and one sample taken. -/
theorem clearRunFlagStops : Obligations.ClearRunFlagStops := by
  intro s hrun hseq hclear
  rw [step_frameStart hrun hseq, frameStart_of_clear hclear]

/-- A tick is subtraction floored at 0. -/
theorem tickTimer_toNat (b : Byte) : (tickTimer b).toNat = b.toNat - 1 := by
  by_cases h : b = 0
  · rw [h]
    rfl
  · rw [tickTimer, if_neg h]
    bv_omega

/-- Settles O14: the tick is one write of each timer. -/
theorem tickDecrementsTimers : Obligations.TickDecrementsTimers := fun s hrun hseq =>
  ⟨_, step_tick hrun hseq, tickTimer_toNat s.dt, tickTimer_toNat s.st, rfl⟩

theorem audioUpdate_audio_iff (s : State) : (audioUpdate s).audio = true ↔ 0 < s.st.toNat := by
  rw [audioUpdate, decide_eq_true_iff]
  bv_omega

/-- Settles O15: the audio update is one write of the gate. -/
theorem audioGateFollowsSoundTimer : Obligations.AudioGateFollowsSoundTimer := fun s hrun hseq =>
  ⟨_, step_audioUpdate hrun hseq, audioUpdate_audio_iff s, rfl⟩

theorem presentPulse_iff (s : State) : s.presentPulse = true ↔ s.halt = .none ∧ s.seq = .present := by
  simp [State.presentPulse]

/-- Settles O16: present is one move of the sequencer. -/
theorem presentChangesNothing : Obligations.PresentChangesNothing := by
  refine fun s => ⟨presentPulse_iff s, rfl, fun hpulse => ?_⟩
  obtain ⟨hrun, hseq⟩ := (presentPulse_iff s).1 hpulse
  exact step_present hrun hseq

end Sys2Proof.Machine
end

section
namespace Sys2Proof.Machine

/-! ### Everything an invocation and a step can do (40_step section 1, 60_exceptions section 6) -/

/-- What an invocation can leave: the poll's state, the fault of a failed fetch or of an illegal word, or an
instruction's answer. -/
inductive Invoked (s : State) : State → Prop where
  | poll (t : Nibble) (hmode : s.mode = .awaitingKey t) : Invoked s (keyWaitPoll t s)
  | fetchFault : Invoked s (s.setHalt (.faulted .addressOutOfRange s.pc s.pc))
  | illegal (op : Word) (hpc : s.pc.toNat ≤ 0xFFE) :
      Invoked s (s.advancePc.setHalt (.faulted .unknownOpcode op (s.advancePc.pc - 2)))
  | execute (i : Instr) (hpc : s.pc.toNat ≤ 0xFFE) (t : State) (h : exec i s.advancePc = .next t) : Invoked s t

theorem invoke_spec (s : State) : ∃ t, invoke s = .next t ∧ Invoked s t := by
  cases hmode : s.mode with
  | awaitingKey t => exact ⟨_, invoke_of_awaitingKey hmode, .poll t hmode⟩
  | running =>
    rcases Nat.lt_or_ge 0xFFE s.pc.toNat with hpc | hpc
    · exact ⟨_, by simp only [invoke, hmode, fetch_of_gt hpc, raiseAt_eq], .fetchFault⟩
    · simp only [invoke, hmode, fetch_of_le hpc]
      cases hdecode : decode (wordOfBytes (s.mem.read s.pc.toNat) (s.mem.read (s.pc.toNat + 1))) with
      | error e => exact ⟨_, execWord_of_error hdecode _, .illegal _ hpc⟩
      | ok i => exact ⟨_, (execWord_of_ok hdecode _).trans (exec_eq i _), .execute i hpc _ (exec_eq i _)⟩

/-- What a step can leave. -/
inductive Stepped (s : State) : State → Prop where
  | frameStart (hseq : s.seq = .frameStart) : Stepped s (frameStart s)
  | invoke (k : Fin Config.cyclesPerFrame) (hseq : s.seq = .invoke k) (t : State) (h : Invoked s t) :
      Stepped s (finishInvoke k t)
  | tick (hseq : s.seq = .tick) : Stepped s (timerTick s)
  | audioUpdate (hseq : s.seq = .audioUpdate) : Stepped s (audioUpdate s)
  | present (hseq : s.seq = .present) : Stepped s (presentFrame s)

theorem step_invocation {s : State} {k : Fin Config.cyclesPerFrame} (hrun : s.halt = .none) (hseq : s.seq = .invoke k) :
    ∃ t, step s = .next (finishInvoke k t) ∧ Invoked s t := by
  obtain ⟨t, ht, hinv⟩ := invoke_spec s
  exact ⟨t, by rw [step_invoke hrun hseq, invokeStep, ht], hinv⟩

/-- A core that is not halted has a step. -/
theorem step_spec {s : State} (hrun : s.halt = .none) : ∃ t, step s = .next t ∧ Stepped s t := by
  cases hseq : s.seq with
  | frameStart => exact ⟨_, step_frameStart hrun hseq, .frameStart hseq⟩
  | invoke k =>
    obtain ⟨t, hstep, hinv⟩ := step_invocation hrun hseq
    exact ⟨_, hstep, .invoke k hseq t hinv⟩
  | tick => exact ⟨_, step_tick hrun hseq, .tick hseq⟩
  | audioUpdate => exact ⟨_, step_audioUpdate hrun hseq, .audioUpdate hseq⟩
  | present => exact ⟨_, step_present hrun hseq, .present hseq⟩

theorem stepped_of_step {s t : State} (h : step s = .next t) : Stepped s t := by
  cases hhalt : s.halt with
  | none =>
    obtain ⟨u, hstep, hu⟩ := step_spec hhalt
    rw [hstep] at h
    cases h
    exact hu
  | faulted => simp [step_of_faulted hhalt] at h
  | stopped => simp [step_of_stopped hhalt] at h

/-- Settles O19: `exec` answers the fault or the effect, and each position of the sequencer has its step. -/
theorem everyInstrAnswersNext : Obligations.EveryInstrAnswersNext :=
  ⟨fun i s => ⟨_, exec_eq i s⟩, fun _ hrun => (step_spec hrun).imp fun _ => And.left⟩

end Sys2Proof.Machine
end

section
namespace Sys2Proof.Machine

/-! ### What an invocation leaves to the sequencer (60_exceptions section 6) -/

/-- The latch, the gate, the sequencer's position and the frame's inputs are as before: no invocation writes them. -/
def SameFrameState (s t : State) : Prop :=
  t.keys = s.keys ∧ t.audio = s.audio ∧ t.seq = s.seq ∧ t.runEn = s.runEn ∧ t.keysIn = s.keysIn

theorem Frame.sameFrameState {vw : Nibble → Prop} {mw : Nat → Prop} {parts : List Part} {s t : State}
    (h : Frame vw mw parts s t) : SameFrameState s t := by
  obtain ⟨-, -, -, -, -, -, -, -, -, -, -, hrest⟩ := h
  exact hrest

/-- A poll writes nothing but a register and the mode. -/
theorem keyWaitPoll_eq (t : Nibble) (s : State) : ∃ v mode, keyWaitPoll t s = { s with v := v, mode := mode } := by
  unfold keyWaitPoll
  split <;> exact ⟨_, _, rfl⟩

theorem Invoked.sameFrameState {s t : State} (h : Invoked s t) : SameFrameState s t := by
  cases h with
  | poll t =>
    obtain ⟨_, _, heq⟩ := keyWaitPoll_eq t s
    rw [heq]
    exact ⟨rfl, rfl, rfl, rfl, rfl⟩
  | fetchFault => exact (frame_setHalt s _).sameFrameState
  | illegal => exact ⟨rfl, rfl, rfl, rfl, rfl⟩
  | execute i _ _ h => exact (instrWritesOnlyItsOwn i _ _ h).sameFrameState

/-- An invocation halts the core only by a fault. -/
theorem Invoked.halt {s t : State} (hrun : s.halt = .none) (h : Invoked s t) :
    t.halt = .none ∨ ∃ kind info fpc, t.halt = .faulted kind info fpc := by
  cases h with
  | poll t => exact .inl ((keyWaitPoll_halt t s).trans hrun)
  | fetchFault | illegal => exact .inr ⟨_, _, _, rfl⟩
  | execute i _ _ h =>
    obtain ⟨-, rfl⟩ | ⟨kind, info, -, rfl⟩ := exec_cases h
    · exact .inl ((effect_halt i _).trans hrun)
    · exact .inr ⟨_, _, _, rfl⟩

/-- Moving on after an invocation writes nothing but the sequencer's position. -/
theorem finishInvoke_eq_setSeq (k : Fin Config.cyclesPerFrame) (t : State) :
    ∃ q, finishInvoke k t = t.setSeq q := by
  rw [finishInvoke_eq]
  split
  · exact ⟨_, rfl⟩
  · exact ⟨t.seq, rfl⟩

/-- Settles O13: only a frame start whose run flag is set samples the keys. -/
theorem keysSampledOnceAFrame : Obligations.KeysSampledOnceAFrame := by
  constructor
  · intro s hrun hseq hset
    rw [step_frameStart hrun hseq, frameStart_of_set hset]
    exact ⟨_, rfl, rfl, ⟨_, rfl⟩, rfl⟩
  · intro s t hstep
    cases stepped_of_step hstep with
    | frameStart hseq =>
      cases hset : s.runEnSample with
      | true => exact .inr ⟨hseq, rfl⟩
      | false =>
        rw [frameStart_of_clear hset]
        exact .inl ⟨rfl, rfl⟩
    | invoke k _ u hinv =>
      obtain ⟨hkeys, -, -, -, hkeysIn⟩ := hinv.sameFrameState
      obtain ⟨q, hq⟩ := finishInvoke_eq_setSeq k u
      rw [hq]
      exact .inl ⟨hkeys, hkeysIn⟩
    | tick | audioUpdate | present => exact .inl ⟨rfl, rfl⟩

/-- The frame start writes neither the gate, the timers nor the program's state. -/
theorem frameStart_eq (s : State) : ∃ runEn keys keysIn halt seq,
    frameStart s = { s with runEn := runEn, keys := keys, keysIn := keysIn, halt := halt, seq := seq } := by
  unfold frameStart
  split <;> exact ⟨_, _, _, _, _, rfl⟩

/-- Settles O17: each of the five kinds of step by what it writes. -/
theorem eachStepWritesItsOwnState : Obligations.EachStepWritesItsOwnState := by
  intro s t hstep
  cases stepped_of_step hstep with
  | frameStart =>
    obtain ⟨_, _, _, _, _, heq⟩ := frameStart_eq s
    rw [heq]
    exact ⟨.inl rfl, .inl ⟨rfl, rfl⟩, .inl ⟨rfl, rfl, rfl, rfl, rfl, rfl, rfl, rfl⟩⟩
  | invoke k hseq u hinv =>
    obtain ⟨-, haudio, -⟩ := hinv.sameFrameState
    obtain ⟨q, hq⟩ := finishInvoke_eq_setSeq k u
    rw [hq]
    exact ⟨.inl haudio, .inr (.inr ⟨k, hseq⟩), .inr ⟨k, hseq⟩⟩
  | tick hseq => exact ⟨.inl rfl, .inr (.inl hseq), .inl ⟨rfl, rfl, rfl, rfl, rfl, rfl, rfl, rfl⟩⟩
  | audioUpdate hseq => exact ⟨.inr hseq, .inl ⟨rfl, rfl⟩, .inl ⟨rfl, rfl, rfl, rfl, rfl, rfl, rfl, rfl⟩⟩
  | present => exact ⟨.inl rfl, .inl ⟨rfl, rfl⟩, .inl ⟨rfl, rfl, rfl, rfl, rfl, rfl, rfl, rfl⟩⟩

end Sys2Proof.Machine
end

section
namespace Sys2Proof.Machine

/-! ### One frame (60_exceptions section 6) -/

/-- The position after `j` of the frame's invocations. -/
def invocationPos (j : Nat) : Seq := if h : j < Config.cyclesPerFrame then .invoke ⟨j, h⟩ else .tick

theorem invocationPos_of_lt {j : Nat} (h : j < 8) : invocationPos j = .invoke ⟨j, h⟩ := dif_pos h

/-- `t` runs at position `q` of the frame that starts from `s`, with that frame's samples taken. -/
def InFrameOf (s : State) (q : Seq) (t : State) : Prop :=
  t.halt = .none ∧ t.seq = q ∧ t.keys = s.keysSample ∧ t.runEn = s.runEn.advance ∧ t.keysIn = s.keysIn.advance

/-- From one invocation to the next, or to a fault. -/
theorem step_inFrameOf {s t : State} {j : Nat} (hj : j < 8) (h : InFrameOf s (invocationPos j) t) :
    ∃ u, step t = .next u ∧
      (InFrameOf s (invocationPos (j + 1)) u ∨ ∃ kind info fpc, u.halt = .faulted kind info fpc) := by
  obtain ⟨hrun, hseq, hkeys, hrunEn, hkeysIn⟩ := h
  rw [invocationPos_of_lt hj] at hseq
  obtain ⟨u, hstep, hinv⟩ := step_invocation hrun hseq
  refine ⟨_, hstep, ?_⟩
  obtain hnone | ⟨kind, info, fpc, hfault⟩ := hinv.halt hrun
  · obtain ⟨hkeys', -, -, hrunEn', hkeysIn'⟩ := hinv.sameFrameState
    rw [finishInvoke_of_none hnone]
    exact .inl ⟨hnone, rfl, hkeys'.trans hkeys, hrunEn'.trans hrunEn, hkeysIn'.trans hkeysIn⟩
  · rw [finishInvoke_of_ne (by simp [hfault])]
    exact .inr ⟨kind, info, fpc, hfault⟩

/-- The frame start and `j` invocations: the frame goes on, or one of them raised a fault. -/
theorem run_invocations {s : State} (hrun : s.halt = .none) (hseq : s.seq = .frameStart) (hset : s.runEnSample = true) :
    ∀ j, j ≤ 8 →
      (∃ t, core.run (j + 1) s = .next t ∧ InFrameOf s (invocationPos j) t) ∨
      ∃ m t kind info fpc, 2 ≤ m ∧ m ≤ j + 1 ∧ core.run m s = .next t ∧ State.halt t = .faulted kind info fpc
  | 0, _ => by
    refine .inl ⟨_, core_run_succ (step_frameStart hrun hseq) 0, ?_⟩
    rw [frameStart_of_set hset]
    exact ⟨hrun, rfl, rfl, rfl, rfl⟩
  | j + 1, hj => by
    obtain ⟨t, ht, hframe⟩ | ⟨m, t, kind, info, fpc, hm, hmj, hfault⟩ := run_invocations hrun hseq hset j (by omega)
    · obtain ⟨u, hstep, hu⟩ := step_inFrameOf hj hframe
      have hrunU : core.run (j + 1 + 1) s = .next u :=
        (run_add_of_next 1 ht).trans (core_run_succ hstep 0)
      obtain hframe' | ⟨kind, info, fpc, hfault⟩ := hu
      · exact .inl ⟨u, hrunU, hframe'⟩
      · exact .inr ⟨_, u, kind, info, fpc, by omega, by omega, hrunU, hfault⟩
    · exact .inr ⟨m, t, kind, info, fpc, hm, by omega, hfault⟩

/-- The tick, the audio update and present end the frame. -/
theorem run_frameEnd {t : State} (hrun : t.halt = .none) (hseq : t.seq = .tick) :
    core.run 3 t = .next (presentFrame (audioUpdate (timerTick t))) := by
  have haudio : step (timerTick t) = .next (audioUpdate (timerTick t)) := step_audioUpdate hrun rfl
  have hpresent : step (audioUpdate (timerTick t)) = .next (presentFrame (audioUpdate (timerTick t))) :=
    step_present hrun rfl
  calc core.run 3 t
    _ = core.run 2 (timerTick t) := core_run_succ (step_tick hrun hseq) 2
    _ = core.run 1 (audioUpdate (timerTick t)) := core_run_succ haudio 1
    _ = .next (presentFrame (audioUpdate (timerTick t))) := core_run_succ hpresent 0

/-- Settles O18: nine steps bring the tick or a fault; three more end the frame, or the halted core has no step. -/
theorem frameCompletesOrFaults : Obligations.FrameCompletesOrFaults := by
  intro s hrun hseq hset
  obtain ⟨t, ht, hrun', hseq', hkeys, hrunEn, hkeysIn⟩ | ⟨m, t, kind, info, fpc, hm, hm9, ht, hfault⟩ :=
    run_invocations hrun hseq hset 8 le_rfl
  · exact .inl ⟨_, (run_add_of_next 3 ht).trans (run_frameEnd hrun' hseq'), hrun', rfl, hkeys,
      audioUpdate_audio_iff (timerTick t), hrunEn, hkeysIn⟩
  · refine .inr ⟨m, t, kind, info, fpc, hm, hm9, ht, hfault, ?_⟩
    obtain ⟨n, hn⟩ : ∃ n, 12 = m + (n + 1) := ⟨11 - m, by omega⟩
    rw [hn, run_add_of_next (n + 1) ht]
    exact core_run_of_faulted hfault n

end Sys2Proof.Machine
end

section
namespace Sys2Proof.Machine

/-! ### The invariant (10_state section 8) -/

section
variable {s t : State}

theorem State.Inv.setPc (h : s.Inv) {a : Word} (ha : a.toNat ≤ 0x10FE) : (s.setPc a).Inv := by
  obtain ⟨hmem, -, hstack⟩ := h
  exact ⟨hmem, ha, hstack⟩

theorem State.Inv.setMem (h : s.Inv) {m : Memory} (hm : m.wf = true) : (s.setMem m).Inv := by
  obtain ⟨-, hpc, hstack⟩ := h
  exact ⟨hm, hpc, hstack⟩

theorem State.Inv.advanceIf (h : s.Inv) (hpc : s.pc.toNat ≤ 0x1000) (c : Bool) : (s.advanceIf c).Inv := by
  cases c
  · exact h
  · exact h.setPc (by bv_omega)

/-- A popped entry was valid, so it is within PC's bound. -/
theorem State.Inv.pop (h : s.Inv) : (s.pop.getD s).Inv := by
  by_cases hsp : 0 < s.sp.val
  · obtain ⟨hmem, -, hstack⟩ := h
    rw [pop_some hsp]
    refine ⟨hmem, ?_, fun k hk => hstack k (Nat.lt_of_lt_of_le hk (Nat.sub_le _ _))⟩
    exact (hstack ⟨s.sp.val - 1, by omega⟩ (Nat.sub_lt hsp Nat.one_pos)).trans (by decide)
  · rw [pop_none hsp]
    exact h

/-- A pushed entry is PC, which is at most 0x1000 after a fetch's advance. -/
theorem State.Inv.push (h : s.Inv) (hpc : s.pc.toNat ≤ 0x1000) : (s.push.getD s).Inv := by
  by_cases hsp : s.sp.val < 16
  · obtain ⟨hmem, hpc', hstack⟩ := h
    rw [push_some hsp]
    refine ⟨hmem, hpc', fun k hk => ?_⟩
    have hk : k.val < s.sp.val + 1 := hk
    by_cases hnew : k.val = s.sp.val
    · simpa [hnew] using hpc
    · simpa [Vector.getElem_set_ne _ _ (Ne.symm hnew)] using hstack k (by omega)
  · rw [push_none hsp]
    exact h

theorem zext12_le (nnn : Imm12) : (zext12 nnn).toNat ≤ 0x10FE := by
  rw [zext12_toNat]
  omega

theorem zext12_add_zext8_le (nnn : Imm12) (b : Byte) : (zext12 nnn + zext8 b).toNat ≤ 0x10FE := by
  rw [zext12_add_zext8_toNat]
  omega

theorem storeBcd_wf {m : Memory} (hm : m.wf = true) (base : Nat) (b : Byte) : (storeBcd m base b).wf = true :=
  write_wf _ _ _ (write_wf _ _ _ (write_wf _ _ _ hm))

/-- An effect keeps the invariant from a PC the fetch has advanced. -/
theorem inv_effect (h : s.Inv) (hpc : s.pc.toNat ≤ 0x1000) (i : Instr) : (effect i s).Inv := by
  cases i with
  | op00EE => exact h.pop
  | op1NNN nnn => exact h.setPc (zext12_le nnn)
  | op2NNN nnn => exact (h.push hpc).setPc (zext12_le nnn)
  | op3XNN | op4XNN | op5XY0 | op9XY0 | opEX9E | opEXA1 => exact h.advanceIf hpc _
  | opBNNN nnn => exact h.setPc (zext12_add_zext8_le nnn _)
  | opFX33 => exact h.setMem (storeBcd_wf h.1 _ _)
  | opFX55 => exact h.setMem (storeRegs_wf s _ h.1 _)
  | opFX65 =>
    rw [effect, loadRegs_eq]
    exact h
  | _ => exact h

theorem inv_exec (h : s.Inv) (hpc : s.pc.toNat ≤ 0x1000) {i : Instr} (ht : exec i s = .next t) : t.Inv := by
  obtain ⟨-, rfl⟩ | ⟨kind, info, -, rfl⟩ := exec_cases ht
  · exact inv_effect h hpc i
  · exact h

theorem inv_invoked (h : s.Inv) (ht : Invoked s t) : t.Inv := by
  have hadvance : s.pc.toNat ≤ 0xFFE → s.advancePc.Inv := fun hpc => h.setPc (by bv_omega)
  cases ht with
  | poll r =>
    obtain ⟨_, _, heq⟩ := keyWaitPoll_eq r s
    rw [heq]
    exact h
  | fetchFault => exact h
  | illegal _ hpc => exact hadvance hpc
  | execute i hpc _ ht =>
    have hpc' : s.advancePc.pc.toNat ≤ 0x1000 := by
      rw [advancePc_pc]
      bv_omega
    exact inv_exec (hadvance hpc) hpc' ht

end

/-- Settles O22: an invocation keeps the invariant, and no other step writes memory, PC or the stack. -/
theorem stepKeepsStateBounds : Obligations.StepKeepsStateBounds := by
  intro s t h hstep
  cases stepped_of_step hstep with
  | frameStart =>
    obtain ⟨_, _, _, _, _, heq⟩ := frameStart_eq s
    rw [heq]
    exact h
  | invoke k _ u hinv =>
    have hu := inv_invoked h hinv
    obtain ⟨q, hq⟩ := finishInvoke_eq_setSeq k u
    rw [hq]
    exact hu
  | tick | audioUpdate | present => exact h

/-- Settles O20: reset memory lists nothing, PC is 0x200 and the stack is empty. -/
theorem resetMeetsStateBounds : Obligations.ResetMeetsStateBounds :=
  ⟨reset_mem_wf, by decide, fun _ hk => absurd hk (Nat.not_lt_zero _)⟩

/-- Settles O21: the load writes memory by `copyBytes`, or HALT alone. -/
theorem bootMeetsStateBounds : Obligations.BootMeetsStateBounds := by
  intro rom
  rcases Nat.lt_or_ge 0xE00 rom.length with hlarge | hfits
  · rw [boot, loadRom_of_gt hlarge]
    exact resetMeetsStateBounds
  · rw [boot, loadRom_of_le hfits]
    exact resetMeetsStateBounds.setMem (copyBytes_wf rom _ _ reset_mem_wf)

end Sys2Proof.Machine
end

section
namespace Sys2Proof.Machine

/-! ### Call and return (40_step sections 2 and 3) -/

/-- 2NNN with a free slot: PC in the slot SP, and the jump. -/
theorem exec_op2NNN_of_lt (nnn : Imm12) {s : State} (h : s.sp.val < 16) :
    exec (.op2NNN nnn) s = .next { s with
      stack := s.stack.set s.sp.val s.pc h, sp := ⟨s.sp.val + 1, by omega⟩, pc := zext12 nnn } := by
  rw [exec_of_no_fault (faultOf_op2NNN_of_lt nnn h), effect, push_some h]
  rfl

theorem encode_op2NNN (nnn : Imm12) : encode (.op2NNN nnn) = BitVec.ofNat 16 (0x2000 + nnn.toNat) := by
  apply BitVec.eq_of_toNat_eq
  rw [encode, formatNNN_toNat, BitVec.toNat_ofNat, Nat.mod_eq_of_lt (by omega)]
  rfl

/-- Settles O30: the two answers of 2NNN, by whether a slot is free. -/
theorem callPushesReturnAddress : Obligations.CallPushesReturnAddress := by
  refine fun nnn s => ⟨fun h => ⟨_, exec_op2NNN_of_lt nnn h, rfl, ?_, fun k hk => ?_, zext12_toNat nnn,
    frame_stack_pc s _ _ _⟩, fun hfull => ?_⟩
  · exact Vector.getElem_set_self h
  · exact Vector.getElem_set_ne h k.isLt (Ne.symm hk)
  · rw [exec_of_fault (faultOf_op2NNN_of_full nnn hfull), encode_op2NNN]
    rfl

/-- Writing the stack's slots changes nothing else. -/
theorem frame_stack (s : State) (stack : Vector Word 16) : Frame noReg noAddr [.stack] s { s with stack := stack } := by
  simp [Frame, State.getV]

/-- A return right after a call leaves the called state's slot SP filled, and nothing else. -/
theorem exec_call_return (nnn : Imm12) {s : State} (h : s.sp.val < 16) :
    ∃ t, exec (.op2NNN nnn) s = .next t ∧
      exec .op00EE t = .next { s with stack := s.stack.set s.sp.val s.pc h } := by
  refine ⟨_, exec_op2NNN_of_lt nnn h, ?_⟩
  rw [exec_op00EE_of_pos (Nat.succ_pos _)]
  simp

/-- Settles O31: after both instructions the slot the call filled is all that changed, and it is no valid entry. -/
theorem returnUndoesCall : Obligations.ReturnUndoesCall := by
  intro nnn s h
  obtain ⟨t, hcall, hreturn⟩ := exec_call_return nnn h
  exact ⟨t, _, hcall, hreturn, rfl, rfl, fun k hk => Vector.getElem_set_ne h k.isLt (by omega), frame_stack s _⟩

end Sys2Proof.Machine
end

section
namespace Sys2Proof.Machine

/-! ### The register instructions (41_alu) -/

theorem getLsbD_getV_setV (s : State) (x : Nibble) (b : Byte) (k : Nat) :
    ((s.setV x b).getV x).getLsbD k = b.getLsbD k := by
  rw [getV_setV_same]

/-- Settles O37: each answer is one register write, of the bitwise operation. -/
theorem bitwiseOpsKeepFlag : Obligations.BitwiseOpsKeepFlag := by
  refine fun x y s => ⟨⟨_, exec_of_no_fault rfl, fun k _ => ?_, frame_setV s x _⟩,
    ⟨_, exec_of_no_fault rfl, fun k _ => ?_, frame_setV s x _⟩,
    ⟨_, exec_of_no_fault rfl, fun k _ => ?_, frame_setV s x _⟩⟩
  · exact (getLsbD_getV_setV s x _ k).trans (BitVec.getLsbD_or ..)
  · exact (getLsbD_getV_setV s x _ k).trans (BitVec.getLsbD_and ..)
  · exact (getLsbD_getV_setV s x _ k).trans (BitVec.getLsbD_xor ..)

theorem flagByte_toNat (f : Bool) : (flagByte f).toNat = f.toNat := by
  cases f <;> rfl

/-- A flag is the number 1 exactly where its condition holds. -/
theorem flagByte_decide_toNat (p : Prop) [Decidable p] : (flagByte (decide p)).toNat = if p then 1 else 0 := by
  rw [flagByte_toNat]
  split <;> simp [*]

/-- What a flag writer leaves: the result in VX unless VX is VF, the flag in VF, and nothing else changed. -/
theorem setResultFlag_spec (s : State) (x : Nibble) (b : Byte) (f : Bool) {r v : Nat}
    (hr : b.toNat = r) (hv : (flagByte f).toNat = v) :
    (x ≠ flagReg → ((s.setResultFlag x b f).getV x).toNat = r) ∧ ((s.setResultFlag x b f).getV flagReg).toNat = v ∧
      Frame (fun r => r = x ∨ r = flagReg) noAddr [] s (s.setResultFlag x b f) := by
  refine ⟨fun hx => ?_, ?_, frame_setResultFlag s x b f⟩
  · rw [getV_setResultFlag, if_neg hx, if_pos rfl, hr]
  · rw [getV_setResultFlag, if_pos rfl, hv]

/-- The difference of two bytes, with the borrow written out. -/
theorem byte_sub_toNat (a b : Byte) :
    (a - b).toNat = if a.toNat ≥ b.toNat then a.toNat - b.toNat else a.toNat + 256 - b.toNat := by
  rw [BitVec.toNat_sub]
  split <;> omega

/-- Settles O38: sum and differences of two bytes, as numbers. -/
theorem addAndSubtractWithFlag : Obligations.AddAndSubtractWithFlag := by
  rintro x y s _ _ rfl rfl
  exact ⟨⟨_, exec_of_no_fault rfl, setResultFlag_spec s x _ _ (BitVec.toNat_add ..) (flagByte_decide_toNat _)⟩,
    ⟨_, exec_of_no_fault rfl, setResultFlag_spec s x _ _ (byte_sub_toNat _ _) (flagByte_decide_toNat _)⟩,
    ⟨_, exec_of_no_fault rfl, setResultFlag_spec s x _ _ (byte_sub_toNat _ _) (flagByte_decide_toNat _)⟩⟩

/-- The bit a right shift moves out is the remainder by 2. -/
theorem shiftRightOut_toNat (a : Byte) : (flagByte (shiftRightOut a)).toNat = a.toNat % 2 := by
  rw [flagByte_toNat, shiftRightOut, BitVec.getLsbD, Nat.toNat_testBit, Nat.pow_zero, Nat.div_one]

/-- The bit a left shift moves out is the quotient by 128. -/
theorem shiftLeftOut_toNat (a : Byte) : (flagByte (shiftLeftOut a)).toNat = a.toNat / 128 := by
  rw [flagByte_toNat, shiftLeftOut, BitVec.getLsbD, Nat.toNat_testBit]
  omega

/-- Settles O39: the shifts are division and multiplication by 2, the flag the bit moved out. -/
theorem shiftsByOneWithFlag : Obligations.ShiftsByOneWithFlag := by
  rintro x y s _ rfl
  refine ⟨⟨_, exec_of_no_fault rfl, setResultFlag_spec s x _ _ ?_ (shiftRightOut_toNat _)⟩,
    ⟨_, exec_of_no_fault rfl, setResultFlag_spec s x _ _ ?_ (shiftLeftOut_toNat _)⟩⟩
  · rw [BitVec.toNat_ushiftRight, Nat.shiftRight_eq_div_pow, Nat.pow_one]
  · rw [BitVec.toNat_shiftLeft, Nat.shiftLeft_eq, Nat.pow_one]

/-- Settles O40: one register write of the masked draw, and one draw taken. -/
theorem randomByteIsMasked : Obligations.RandomByteIsMasked := by
  refine fun x nn s => ⟨formatXNN_toNat _ _ _, _, exec_of_no_fault rfl, fun k _ => ?_, rfl, frame_setV_randIn s x _ _⟩
  exact (getLsbD_getV_setV s x _ k).trans (BitVec.getLsbD_and ..)

/-- Settles O42: one write of I, of a sum modulo 65536. -/
theorem indexAddWraps : Obligations.IndexAddWraps := by
  refine fun x s => ⟨_, exec_of_no_fault rfl, ?_, frame_setI s _⟩
  change (s.i + zext8 (s.getV x)).toNat = _
  rw [BitVec.toNat_add, zext8_toNat]

/-- Settles O53: each answer is one write, of VX, DT or ST. -/
theorem timerTransfers : Obligations.TimerTransfers := fun x s =>
  ⟨⟨_, exec_of_no_fault rfl, getV_setV_same s x _, frame_setV s x _⟩,
    ⟨_, exec_of_no_fault rfl, rfl, frame_setDt s _⟩, ⟨_, exec_of_no_fault rfl, rfl, frame_setSt s _⟩⟩

end Sys2Proof.Machine
end

section
namespace Sys2Proof.Machine

/-! ### The memory instructions (42_index section 2) -/

section
variable {s : State} {x : Nibble}

theorem exec_opFX33_of_fits (h : s.i.toNat + 2 ≤ 0xFFF) :
    exec (.opFX33 x) s = .next (s.setMem (storeBcd s.mem (s.dataAddr 0) (s.getV x))) :=
  exec_of_no_fault (rangeFault_of_lt (Nat.lt_succ_of_le h))

theorem exec_opFX55_of_fits (h : s.i.toNat + x.toNat ≤ 0xFFF) :
    exec (.opFX55 x) s = .next (s.setMem (storeRegs s (s.dataAddr 0) (x.toNat + 1))) :=
  exec_of_no_fault (rangeFault_of_lt (Nat.lt_succ_of_le h))

theorem exec_opFX65_of_fits (h : s.i.toNat + x.toNat ≤ 0xFFF) :
    exec (.opFX65 x) s = .next (loadRegs s (s.dataAddr 0) (x.toNat + 1)) :=
  exec_of_no_fault (rangeFault_of_lt (Nat.lt_succ_of_le h))

/-- After FX55 byte `I + k` is `V[k]`. -/
theorem read_storeRegs_register (hwf : s.mem.wf = true) (h : s.i.toNat + x.toNat ≤ 0xFFF) (k : Nibble)
    (hk : k.toNat ≤ x.toNat) :
    (storeRegs s (s.dataAddr 0) (x.toNat + 1)).read (s.i.toNat + k.toNat) = s.getV k := by
  have hread := read_storeRegs_inside s (s.dataAddr 0) hwf (x.toNat + 1) k.toNat
    (by rw [State.dataAddr]; omega) (by omega)
  rwa [BitVec.ofNat_toNat, BitVec.setWidth_eq] at hread

end

/-- The three bytes that FX33 stores. -/
theorem read_storeBcd {m : Memory} (hwf : m.wf = true) {base : Nat} (hbase : base + 2 ≤ 0xFFF) (b : Byte) :
    (storeBcd m base b).read base = bcdHundreds b ∧ (storeBcd m base b).read (base + 1) = bcdTens b ∧
      (storeBcd m base b).read (base + 2) = bcdOnes b := by
  have hwf1 := write_wf m base (bcdHundreds b) hwf
  have hwf2 := write_wf _ (base + 1) (bcdTens b) hwf1
  unfold storeBcd
  refine ⟨?_, ?_, read_write_same _ _ _ hwf2 (by omega)⟩
  · rw [read_write_of_ne _ _ _ _ (by omega), read_write_of_ne _ _ _ _ (by omega),
      read_write_same _ _ _ hwf (by omega)]
  · rw [read_write_of_ne _ _ _ _ (by omega), read_write_same _ _ _ hwf1 (by omega)]

/-- Each digit fits in its byte. -/
theorem bcd_toNat (b : Byte) : (bcdHundreds b).toNat = b.toNat / 100 ∧ (bcdTens b).toNat = b.toNat / 10 % 10 ∧
    (bcdOnes b).toNat = b.toNat % 10 := by
  simp only [bcdHundreds, bcdTens, bcdOnes, BitVec.toNat_ofNat]
  omega

/-- Settles O43: the three writes are to distinct addresses in memory. -/
theorem bcdStoresDigits : Obligations.BcdStoresDigits := by
  rintro x s _ hwf rfl hfits
  obtain ⟨hhundreds, htens, hones⟩ := read_storeBcd hwf hfits (s.getV x)
  obtain ⟨hh, ht, ho⟩ := bcd_toNat (s.getV x)
  exact ⟨_, exec_opFX33_of_fits hfits, (congrArg BitVec.toNat hhundreds).trans hh,
    (congrArg BitVec.toNat htens).trans ht, (congrArg BitVec.toNat hones).trans ho, frame_storeBcd s _⟩

/-- Settles O44: the answer is one write of the memory, by `storeRegs`. -/
theorem registerStore : Obligations.RegisterStore := fun x s hwf hfits =>
  ⟨_, exec_opFX55_of_fits hfits, fun _ hk => read_storeRegs_register hwf hfits _ hk, frame_storeRegs s x⟩

/-- Settles O45: the answer is `loadRegs`. -/
theorem registerLoad : Obligations.RegisterLoad := fun x s hfits =>
  ⟨_, exec_opFX65_of_fits hfits, fun k hk =>
    (getV_loadRegs s _ k _ (by omega)).trans (if_pos (Nat.lt_succ_of_le hk)), frame_loadRegs s x⟩

/-- Settles O47: the fetch reads the two bytes just stored. -/
theorem storeSeenByNextFetch : Obligations.StoreSeenByNextFetch := by
  intro x k s hwf hfits hk
  refine ⟨_, exec_opFX55_of_fits hfits, ?_⟩
  have hpc : (s.i + BitVec.ofNat 16 k.toNat).toNat = s.i.toNat + k.toNat := by bv_omega
  have hnext : (k + 1).toNat = k.toNat + 1 := by bv_omega
  have hhigh := read_storeRegs_register hwf hfits k (by omega)
  have hlow := read_storeRegs_register hwf hfits (k + 1) (by omega)
  rw [hnext] at hlow
  rw [fetch_of_le (by rw [hpc]; omega), hpc]
  exact congrArg some (congrArg₂ wordOfBytes hhigh hlow)

/-- Settles O46: in each form the range check fails before the effect. -/
theorem dataRangeFaults : Obligations.DataRangeFaults := by
  refine fun x y n s => ⟨fun h => exec_of_fault (rangeFault_of_ge h), fun h => exec_of_fault (rangeFault_of_ge h),
    fun h => exec_of_fault (rangeFault_of_ge h), fun hn h => ?_⟩
  have hne : n ≠ 0 := by
    rintro rfl
    exact absurd hn (by decide)
  rw [Nat.add_sub_assoc hn] at h ⊢
  exact exec_of_fault ((faultOf_opDXYN_of_ne x y hne).trans (rangeFault_of_ge h))

end Sys2Proof.Machine
end

section
namespace Sys2Proof.Machine

/-! ### DXYN (43_display section 2) -/

/-- Settles O49: DXYN with its sprite in memory draws it, and the sprite engine XORs the footprint. -/
theorem drawXorsFootprint : Obligations.DrawXorsFootprint := by
  rintro x y n s _ _ _ hfits rfl rfl rfl
  obtain ⟨hin, hout, hcollision⟩ :=
    drawSprite_spec (s.sprite n) (s.getV x).toNat (s.getV y).toNat s.fb (sprite_length_le s n)
  have hflag := drawFromI_getV_flagReg x y n s
  refine ⟨_, exec_opDXYN_of_fits x y hfits, hin, hout, fun hhit => ?_, fun hmiss => ?_, frame_drawFromI x y n s⟩
  · exact hflag.trans ((flagByte_eq_one_iff _).2 (hcollision.2 hhit))
  · refine hflag.trans ((flagByte_eq_zero_iff _).2 fun hset => ?_)
    obtain ⟨r, c, hfoot, hon⟩ := hcollision.1 hset
    exact Bool.false_ne_true ((hmiss r c hfoot).symm.trans hon)

end Sys2Proof.Machine
end

section
namespace Sys2Proof.Machine

/-! ### The key skips (44_keypad section 1) -/

theorem advanceIf_not (s : State) (c : Bool) : s.advanceIf (!c) = if c then s else s.advancePc := by
  cases c <;> rfl

/-- Settles O51: with an index of at most 15 the answer is the skip, under the latch's bit. -/
theorem keySkips : Obligations.KeySkips := by
  intro x s hkey
  have hE : faultOf (.opEX9E x) s = none := keyFault_of_le hkey
  have hA : faultOf (.opEXA1 x) s = none := keyFault_of_le hkey
  exact ⟨exec_of_no_fault hE, (exec_of_no_fault hA).trans (congrArg _ (advanceIf_not s _))⟩

/-- Settles O52: the index check fails before the skip, with the index as info. -/
theorem keyIndexFaults : Obligations.KeyIndexFaults := by
  intro x s i hkey hi
  have hfault : faultOf i s = some (.keyIndexOutOfRange, zext8 (s.getV x)) := by
    rcases hi with rfl | rfl
    · exact keyFault_of_gt hkey
    · exact keyFault_of_gt hkey
  rw [BitVec.ofNat_toNat]
  exact exec_of_fault hfault

end Sys2Proof.Machine
end

section
namespace Sys2Proof.Machine

/-! ### Reset, the ROM load's fault, and the outputs (10_state section 9, 60_exceptions sections 1 and 5) -/

/-- Settles O56: the load writes HALT alone, and a halted core has no step. -/
theorem tooLargeRomNeverRuns : Obligations.TooLargeRomNeverRuns := by
  intro rom hlarge
  have hboot : boot rom = _ := loadRom_of_gt hlarge State.reset
  have hhalt : (boot rom).halt = .faulted .romTooLarge (BitVec.ofNat 16 rom.length) 0x0200#16 := by
    rw [hboot]
    rfl
  refine ⟨hhalt, by rw [hboot]; rfl, by rw [hboot]; rfl, fun t ht => ?_⟩
  rw [step_of_faulted hhalt] at ht
  cases ht

/-- Above the font an unlisted address reads as 0x00. -/
theorem resetByte_of_ge {a : Nat} (h : 0x050 ≤ a) : resetByte a = 0x00 := by
  have hlen : font.length ≤ a := h
  rw [resetByte, List.getElem?_eq_none hlen, Option.getD_none]

theorem hostReset_getV (s : State) (r : Nibble) : s.hostReset.getV r = 0 := by
  simp [State.hostReset, State.getV, State.reset]

/-- Settles O57: the reset input writes every field of the core; reset memory lists nothing, so it reads as the font. -/
theorem resetValues : Obligations.ResetValues := by
  refine ⟨?_, rfl, fun a => resetByte_of_ge, by decide, by decide⟩
  rintro s _ rfl
  refine ⟨rfl, hostReset_getV s, rfl, rfl, fun k => ?_, rfl, rfl, pixel_clearedFb, rfl, rfl, rfl, rfl, rfl, rfl⟩
  simp [State.hostReset, State.reset]

/-- Settles O58: by the three values of HALT, and the six kinds of a fault. -/
theorem outputsFollowState : Obligations.OutputsFollowState := by
  refine fun s => ⟨rfl, decide_eq_true_iff, ?_, fun kind info fpc h => ?_⟩
  · rintro (h | h) <;> rw [State.faultCode, h]
  · have hcode : s.faultCode = kind.code := by rw [State.faultCode, h]
    refine ⟨by rw [State.faultInfo, h], by rw [State.faultPcOut, h], ?_⟩
    rw [hcode]
    and_intros
    all_goals
      rintro rfl
      rfl

end Sys2Proof.Machine
end
